-- ==== Sys2Proof/Word.lean ====
section
/-! DEFINITION. The two widths of the core (spec/00_scope.md R6): bytes and words. -/

namespace Sys2Proof

/-- A data register, a memory cell, an I/O port number or an I/O datum: 8 bits (R6). -/
abbrev Byte := BitVec 8

/-- A register pair, IX, IY, SP, pc or a memory address: 16 bits (R6). -/
abbrev Word := BitVec 16

end Sys2Proof
end

