-- ==== Sys2Proof/Syntax.lean ====
section
/-! DEFINITION. The instructions, one constructor per row of spec/opcode_table.json, and the names their
operands take. The IX and IY variants of a row share a constructor: the field `i` of the encoding (R96). -/

namespace Sys2Proof

/-- The seven 8-bit registers a 3-bit register code names (R24); code 6 names none. -/
inductive Reg8 where
  | b | c | d | e | h | l | a
  deriving DecidableEq, Repr

/-- The pairs of the 2-bit code `rp` (R25). -/
inductive Pair where
  | bc | de | hl | sp
  deriving DecidableEq, Repr

/-- The pairs of the 2-bit code `rp2` of PUSH and POP (R26). -/
inductive Pair2 where
  | bc | de | hl | af
  deriving DecidableEq, Repr

/-- The pairs of the 2-bit code `rpx` of ADD IX,pp and ADD IY,pp (R232): code 2 is the index register itself. -/
inductive PairX where
  | bc | de | idx | sp
  deriving DecidableEq, Repr

/-- The index register a 0xDD or 0xFD byte selects (R96). -/
inductive Idx where
  | ix | iy
  deriving DecidableEq, Repr

/-- The eight conditions (R270). -/
inductive Cond where
  | nz | z | nc | c | po | pe | p | m
  deriving DecidableEq, Repr

/-- An instruction, with its operands as the encoding gives them: `n` an immediate byte, `nn` an immediate
word, `d` an index displacement (in the indexed forms), `e` a PC-relative displacement, `b` a bit number,
`t` a restart code. A parenthesis of the assembler name reads `M` in the constructor's name. -/
inductive Instr where
  -- Load (spec/42_load.md)
  /-- LD r,r' (R180). -/
  | ldRR (dst : Reg8) (src : Reg8)
  /-- LD r,n (R181). -/
  | ldRN (dst : Reg8) (n : Byte)
  /-- LD r,(HL) (R182). -/
  | ldRMHl (dst : Reg8)
  /-- LD (HL),r (R183). -/
  | ldMHlR (r : Reg8)
  /-- LD (HL),n (R184). -/
  | ldMHlN (n : Byte)
  /-- LD r,(IX+d) / LD r,(IY+d) (R185). -/
  | ldRMIdx (i : Idx) (t : Reg8) (d : Byte)
  /-- LD (IX+d),r / LD (IY+d),r (R186). -/
  | ldMIdxR (i : Idx) (d : Byte) (r : Reg8)
  /-- LD (IX+d),n / LD (IY+d),n (R187). -/
  | ldMIdxN (i : Idx) (d : Byte) (n : Byte)
  /-- LD A,(BC) (R188). -/
  | ldAMBc
  /-- LD A,(DE) (R189). -/
  | ldAMDe
  /-- LD (BC),A (R190). -/
  | ldMBcA
  /-- LD (DE),A (R191). -/
  | ldMDeA
  /-- LD A,(nn) (R192). -/
  | ldAMNn (nn : Word)
  /-- LD (nn),A (R193). -/
  | ldMNnA (nn : Word)
  /-- LD dd,nn (R194). -/
  | ldDdNn (p : Pair) (nn : Word)
  /-- LD IX,nn / LD IY,nn (R195). -/
  | ldIdxNn (i : Idx) (nn : Word)
  /-- LD HL,(nn) (R196). -/
  | ldHlMNn (nn : Word)
  /-- LD (nn),HL (R197). -/
  | ldMNnHl (nn : Word)
  /-- LD dd,(nn) (R198). -/
  | ldDdMNn (p : Pair) (nn : Word)
  /-- LD (nn),dd (R199). -/
  | ldMNnDd (nn : Word) (p : Pair)
  /-- LD IX,(nn) / LD IY,(nn) (R200). -/
  | ldIdxMNn (i : Idx) (nn : Word)
  /-- LD (nn),IX / LD (nn),IY (R201). -/
  | ldMNnIdx (nn : Word) (i : Idx)
  /-- LD SP,HL (R202). -/
  | ldSpHl
  /-- LD SP,IX / LD SP,IY (R203). -/
  | ldSpIdx (i : Idx)
  -- Arithmetic, compare and logic (spec/43_arithmetic_logic.md)
  /-- ADD A,r (R220). -/
  | addAR (r : Reg8)
  /-- ADD A,n (R220). -/
  | addAN (n : Byte)
  /-- ADD A,(HL) (R220). -/
  | addAMHl
  /-- ADD A,(IX+d) / ADD A,(IY+d) (R220). -/
  | addAMIdx (i : Idx) (d : Byte)
  /-- ADC A,r (R221). -/
  | adcAR (r : Reg8)
  /-- ADC A,n (R221). -/
  | adcAN (n : Byte)
  /-- ADC A,(HL) (R221). -/
  | adcAMHl
  /-- ADC A,(IX+d) / ADC A,(IY+d) (R221). -/
  | adcAMIdx (i : Idx) (d : Byte)
  /-- SUB r (R222). -/
  | subR (r : Reg8)
  /-- SUB n (R222). -/
  | subN (n : Byte)
  /-- SUB (HL) (R222). -/
  | subMHl
  /-- SUB (IX+d) / SUB (IY+d) (R222). -/
  | subMIdx (i : Idx) (d : Byte)
  /-- SBC A,r (R223). -/
  | sbcAR (r : Reg8)
  /-- SBC A,n (R223). -/
  | sbcAN (n : Byte)
  /-- SBC A,(HL) (R223). -/
  | sbcAMHl
  /-- SBC A,(IX+d) / SBC A,(IY+d) (R223). -/
  | sbcAMIdx (i : Idx) (d : Byte)
  /-- AND r (R239). -/
  | andR (r : Reg8)
  /-- AND n (R239). -/
  | andN (n : Byte)
  /-- AND (HL) (R239). -/
  | andMHl
  /-- AND (IX+d) / AND (IY+d) (R239). -/
  | andMIdx (i : Idx) (d : Byte)
  /-- XOR r (R241). -/
  | xorR (r : Reg8)
  /-- XOR n (R241). -/
  | xorN (n : Byte)
  /-- XOR (HL) (R241). -/
  | xorMHl
  /-- XOR (IX+d) / XOR (IY+d) (R241). -/
  | xorMIdx (i : Idx) (d : Byte)
  /-- OR r (R240). -/
  | orR (r : Reg8)
  /-- OR n (R240). -/
  | orN (n : Byte)
  /-- OR (HL) (R240). -/
  | orMHl
  /-- OR (IX+d) / OR (IY+d) (R240). -/
  | orMIdx (i : Idx) (d : Byte)
  /-- CP r (R224). -/
  | cpR (r : Reg8)
  /-- CP n (R224). -/
  | cpN (n : Byte)
  /-- CP (HL) (R224). -/
  | cpMHl
  /-- CP (IX+d) / CP (IY+d) (R224). -/
  | cpMIdx (i : Idx) (d : Byte)
  /-- INC r (R225). -/
  | incR (r : Reg8)
  /-- INC (HL) (R226). -/
  | incMHl
  /-- INC (IX+d) / INC (IY+d) (R227). -/
  | incMIdx (i : Idx) (d : Byte)
  /-- DEC r (R228). -/
  | decR (r : Reg8)
  /-- DEC (HL) (R229). -/
  | decMHl
  /-- DEC (IX+d) / DEC (IY+d) (R230). -/
  | decMIdx (i : Idx) (d : Byte)
  /-- ADD HL,ss (R231). -/
  | addHlSs (p : Pair)
  /-- ADD IX,pp / ADD IY,pp (R232). -/
  | addIdxPp (i : Idx) (p : PairX)
  /-- ADC HL,ss (R233). -/
  | adcHlSs (p : Pair)
  /-- SBC HL,ss (R234). -/
  | sbcHlSs (p : Pair)
  /-- INC ss (R235). -/
  | incSs (p : Pair)
  /-- DEC ss (R236). -/
  | decSs (p : Pair)
  /-- INC IX / INC IY (R237). -/
  | incIdx (i : Idx)
  /-- DEC IX / DEC IY (R238). -/
  | decIdx (i : Idx)
  /-- CPL (R242). -/
  | cpl
  -- Control transfer (spec/44_control_transfer.md)
  /-- JP nn (R271). -/
  | jpNn (nn : Word)
  /-- JP cc,nn (R272). -/
  | jpCcNn (cc : Cond) (nn : Word)
  /-- JP (HL) (R273). -/
  | jpHl
  /-- JP (IX) / JP (IY) (R274). -/
  | jpIdx (i : Idx)
  /-- JR e (R275). -/
  | jrE (e : Byte)
  /-- JR cc,e (R276). -/
  | jrCcE (cc : Cond) (e : Byte)
  /-- DJNZ e (R277). -/
  | djnzE (e : Byte)
  /-- CALL nn (R278). -/
  | callNn (nn : Word)
  /-- CALL cc,nn (R279). -/
  | callCcNn (cc : Cond) (nn : Word)
  /-- RET (R280). -/
  | ret
  /-- RET cc (R281). -/
  | retCc (cc : Cond)
  /-- RST p (R282). -/
  | rstP (t : Fin 8)
  -- Stack and exchange (spec/45_stack_exchange.md)
  /-- PUSH qq (R292). -/
  | pushQq (p : Pair2)
  /-- POP qq (R293). -/
  | popQq (p : Pair2)
  /-- PUSH IX / PUSH IY (R294). -/
  | pushIdx (i : Idx)
  /-- POP IX / POP IY (R295). -/
  | popIdx (i : Idx)
  /-- EX DE,HL (R296). -/
  | exDeHl
  /-- EX AF,AF' (R297). -/
  | exAfAf
  /-- EXX (R298). -/
  | exx
  /-- EX (SP),HL (R299). -/
  | exMSpHl
  /-- EX (SP),IX / EX (SP),IY (R300). -/
  | exMSpIdx (i : Idx)
  -- Rotate and shift (spec/46_rotate_shift.md)
  /-- RLCA (R310). -/
  | rlca
  /-- RRCA (R311). -/
  | rrca
  /-- RLA (R312). -/
  | rla
  /-- RRA (R313). -/
  | rra
  /-- RLC r (R315). -/
  | rlcR (r : Reg8)
  /-- RLC (HL) (R315). -/
  | rlcMHl
  /-- RLC (IX+d) / RLC (IY+d) (R315). -/
  | rlcMIdx (i : Idx) (d : Byte)
  /-- RRC r (R316). -/
  | rrcR (r : Reg8)
  /-- RRC (HL) (R316). -/
  | rrcMHl
  /-- RRC (IX+d) / RRC (IY+d) (R316). -/
  | rrcMIdx (i : Idx) (d : Byte)
  /-- RL r (R317). -/
  | rlR (r : Reg8)
  /-- RL (HL) (R317). -/
  | rlMHl
  /-- RL (IX+d) / RL (IY+d) (R317). -/
  | rlMIdx (i : Idx) (d : Byte)
  /-- RR r (R318). -/
  | rrR (r : Reg8)
  /-- RR (HL) (R318). -/
  | rrMHl
  /-- RR (IX+d) / RR (IY+d) (R318). -/
  | rrMIdx (i : Idx) (d : Byte)
  /-- SLA r (R319). -/
  | slaR (r : Reg8)
  /-- SLA (HL) (R319). -/
  | slaMHl
  /-- SLA (IX+d) / SLA (IY+d) (R319). -/
  | slaMIdx (i : Idx) (d : Byte)
  /-- SRA r (R320). -/
  | sraR (r : Reg8)
  /-- SRA (HL) (R320). -/
  | sraMHl
  /-- SRA (IX+d) / SRA (IY+d) (R320). -/
  | sraMIdx (i : Idx) (d : Byte)
  /-- SLL r (R321). -/
  | sllR (r : Reg8)
  /-- SLL (HL) (R321). -/
  | sllMHl
  /-- SLL (IX+d) / SLL (IY+d) (R321). -/
  | sllMIdx (i : Idx) (d : Byte)
  /-- SRL r (R322). -/
  | srlR (r : Reg8)
  /-- SRL (HL) (R322). -/
  | srlMHl
  /-- SRL (IX+d) / SRL (IY+d) (R322). -/
  | srlMIdx (i : Idx) (d : Byte)
  -- Bit test, set and reset (spec/47_bit.md)
  /-- BIT b,r (R330). -/
  | bitBR (b : Fin 8) (r : Reg8)
  /-- BIT b,(HL) (R331). -/
  | bitBMHl (b : Fin 8)
  /-- BIT b,(IX+d) / BIT b,(IY+d) (R332). -/
  | bitBMIdx (b : Fin 8) (i : Idx) (d : Byte)
  /-- RES b,r (R336). -/
  | resBR (b : Fin 8) (r : Reg8)
  /-- RES b,(HL) (R337). -/
  | resBMHl (b : Fin 8)
  /-- RES b,(IX+d) / RES b,(IY+d) (R338). -/
  | resBMIdx (b : Fin 8) (i : Idx) (d : Byte)
  /-- SET b,r (R333). -/
  | setBR (b : Fin 8) (r : Reg8)
  /-- SET b,(HL) (R334). -/
  | setBMHl (b : Fin 8)
  /-- SET b,(IX+d) / SET b,(IY+d) (R335). -/
  | setBMIdx (b : Fin 8) (i : Idx) (d : Byte)
  -- Block transfer and compare (spec/48_block.md)
  /-- LDI (R350). -/
  | ldi
  /-- LDD (R351). -/
  | ldd
  /-- LDIR (R352). -/
  | ldir
  /-- LDDR (R353). -/
  | lddr
  /-- CPI (R354). -/
  | cpi
  /-- CPD (R355). -/
  | cpd
  /-- CPIR (R356). -/
  | cpir
  /-- CPDR (R357). -/
  | cpdr
  -- Input/output, interrupt control, NOP (spec/49_io_interrupt_nop.md)
  /-- IN A,(n) (R370). -/
  | inAMN (n : Byte)
  /-- OUT (n),A (R371). -/
  | outMNA (n : Byte)
  /-- DI (R372). -/
  | di
  /-- EI (R373). -/
  | ei
  /-- IM 0 (R374). -/
  | im0
  /-- IM 1 (R374). -/
  | im1
  /-- IM 2 (R374). -/
  | im2
  /-- NOP (R375). -/
  | nop
  deriving DecidableEq, Repr

end Sys2Proof
end

