-- ==== Sys2Proof/WellFormed.lean ====
section
/-! DEFINITION. Which terms of `Instr` are instructions of the core. The operand types leave one thing to
check: JR takes only the first four conditions (R270, R276). -/

namespace Sys2Proof

/-- The conditions JR cc,e can encode: NZ, Z, NC, C (R276). -/
def Cond.forJr : Cond → Bool
  | .nz | .z | .nc | .c => true
  | .po | .pe | .p | .m => false

/-- An instruction of the admitted set (R104). -/
def Instr.wellFormed : Instr → Bool
  | .jrCcE cc _ => cc.forJr
  | _ => true

end Sys2Proof
end

