-- ==== Sys2Proof/Decode.lean ====
section
/-! DEFINITION. The bit-field, byte-order and sign-extension helpers, the decoder (spec/30_encoding.md
R90 to R106) and, after it, the encoder and the length of each instruction, written from the same rules. -/

namespace Sys2Proof

/-- The low byte `v[7:0]` of a word. -/
def loByte (v : Word) : Byte := BitVec.ofNat 8 v.toNat

/-- The high byte `v[15:8]` of a word. -/
def hiByte (v : Word) : Byte := BitVec.ofNat 8 (v.toNat / 256)

/-- The word `hi:lo` (R8, R69). -/
def mkWord (hi lo : Byte) : Word := BitVec.ofNat 16 (256 * hi.toNat + lo.toNat)

/-- `sext_16` (R8): two's complement sign extension of a displacement byte. -/
def sext16 (d : Byte) : Word := d.signExtend 16

/-- Field x of an opcode byte, bits 7:6 (R92). -/
def fieldX (b : Byte) : Nat := b.toNat / 64

/-- Field y of an opcode byte, bits 5:3 (R92). -/
def fieldY (b : Byte) : Nat := b.toNat / 8 % 8

/-- Field z of an opcode byte, bits 2:0 (R92). -/
def fieldZ (b : Byte) : Nat := b.toNat % 8

/-- Field p of an opcode byte, bits 5:4 (R92). -/
def fieldP (b : Byte) : Nat := b.toNat / 16 % 4

/-- Field q of an opcode byte, bit 3 (R92). -/
def fieldQ (b : Byte) : Nat := b.toNat / 8 % 2

/-- The register of a 3-bit code; code 6 is the (HL) slot and names no register (R24). -/
def reg8Of : Nat → Option Reg8
  | 0 => some .b
  | 1 => some .c
  | 2 => some .d
  | 3 => some .e
  | 4 => some .h
  | 5 => some .l
  | 7 => some .a
  | _ => none

/-- `rp` (R25). -/
def pairOf : Nat → Pair
  | 0 => .bc
  | 1 => .de
  | 2 => .hl
  | _ => .sp

/-- `rp2` (R26). -/
def pair2Of : Nat → Pair2
  | 0 => .bc
  | 1 => .de
  | 2 => .hl
  | _ => .af

/-- `rpx` (R232). -/
def pairXOf : Nat → PairX
  | 0 => .bc
  | 1 => .de
  | 2 => .idx
  | _ => .sp

/-- The condition of a 3-bit code (R270). -/
def condOf : Nat → Cond
  | 0 => .nz
  | 1 => .z
  | 2 => .nc
  | 3 => .c
  | 4 => .po
  | 5 => .pe
  | 6 => .p
  | _ => .m

/-- A field y as a bit number or a restart code. -/
def octal (y : Nat) : Fin 8 := Fin.ofNat 8 y

/-- The four bytes at pc, pc + 1, pc + 2 and pc + 3: `m(0)` to `m(3)` of R99. No instruction is longer. -/
structure Window where
  b0 : Byte
  b1 : Byte
  b2 : Byte
  b3 : Byte
  deriving DecidableEq, Repr

/-- The four bytes in ascending address order. -/
def windowBytes (w : Window) : List Byte := [w.b0, w.b1, w.b2, w.b3]

/-- The window that begins with the given bytes; missing bytes are 0. -/
def windowOf (bytes : List Byte) : Window :=
  { b0 := bytes.getD 0 0, b1 := bytes.getD 1 0, b2 := bytes.getD 2 0, b3 := bytes.getD 3 0 }

/-- The condition under which decoding ends without an instruction. -/
inductive Reject where
  /-- The encoding is outside the admitted set (R105); `bytes` are the bytes read up to and including the
  deciding one (R99, R400). -/
  | unimplemented (bytes : List Byte)
  deriving DecidableEq, Repr

/-- Operation y of the eight accumulator operations on a register (R93, x = 2). -/
def aluR (y : Nat) (r : Reg8) : Instr :=
  match y with
  | 0 => .addAR r
  | 1 => .adcAR r
  | 2 => .subR r
  | 3 => .sbcAR r
  | 4 => .andR r
  | 5 => .xorR r
  | 6 => .orR r
  | _ => .cpR r

/-- Operation y of the eight accumulator operations on the byte at HL. -/
def aluMHl (y : Nat) : Instr :=
  match y with
  | 0 => .addAMHl
  | 1 => .adcAMHl
  | 2 => .subMHl
  | 3 => .sbcAMHl
  | 4 => .andMHl
  | 5 => .xorMHl
  | 6 => .orMHl
  | _ => .cpMHl

/-- Operation y of the eight accumulator operations on an immediate (R93, x = 3, z = 6). -/
def aluN (y : Nat) (n : Byte) : Instr :=
  match y with
  | 0 => .addAN n
  | 1 => .adcAN n
  | 2 => .subN n
  | 3 => .sbcAN n
  | 4 => .andN n
  | 5 => .xorN n
  | 6 => .orN n
  | _ => .cpN n

/-- Operation y of the eight accumulator operations on an indexed byte (R103). -/
def aluMIdx (i : Idx) (y : Nat) (d : Byte) : Instr :=
  match y with
  | 0 => .addAMIdx i d
  | 1 => .adcAMIdx i d
  | 2 => .subMIdx i d
  | 3 => .sbcAMIdx i d
  | 4 => .andMIdx i d
  | 5 => .xorMIdx i d
  | 6 => .orMIdx i d
  | _ => .cpMIdx i d

/-- Operation y of the eight rotates and shifts on a register (R94, x = 0). -/
def rotR (y : Nat) (r : Reg8) : Instr :=
  match y with
  | 0 => .rlcR r
  | 1 => .rrcR r
  | 2 => .rlR r
  | 3 => .rrR r
  | 4 => .slaR r
  | 5 => .sraR r
  | 6 => .sllR r
  | _ => .srlR r

/-- Operation y of the eight rotates and shifts on the byte at HL. -/
def rotMHl (y : Nat) : Instr :=
  match y with
  | 0 => .rlcMHl
  | 1 => .rrcMHl
  | 2 => .rlMHl
  | 3 => .rrMHl
  | 4 => .slaMHl
  | 5 => .sraMHl
  | 6 => .sllMHl
  | _ => .srlMHl

/-- Operation y of the eight rotates and shifts on an indexed byte (R97). -/
def rotMIdx (i : Idx) (y : Nat) (d : Byte) : Instr :=
  match y with
  | 0 => .rlcMIdx i d
  | 1 => .rrcMIdx i d
  | 2 => .rlMIdx i d
  | 3 => .rrMIdx i d
  | 4 => .slaMIdx i d
  | 5 => .sraMIdx i d
  | 6 => .sllMIdx i d
  | _ => .srlMIdx i d

/-- The main page, x = 0 (R93). `none` is an encoding that is not admitted. -/
def decodeMain0 (w : Window) : Option Instr :=
  let y := fieldY w.b0
  let p := fieldP w.b0
  let nn := mkWord w.b2 w.b1
  match fieldZ w.b0 with
  | 0 =>
    match y with
    | 0 => some .nop
    | 1 => some .exAfAf
    | 2 => some (.djnzE w.b1)
    | 3 => some (.jrE w.b1)
    | _ => some (.jrCcE (condOf (y - 4)) w.b1)
  | 1 => if fieldQ w.b0 = 0 then some (.ldDdNn (pairOf p) nn) else some (.addHlSs (pairOf p))
  | 2 =>
    match y with
    | 0 => some .ldMBcA
    | 1 => some .ldAMBc
    | 2 => some .ldMDeA
    | 3 => some .ldAMDe
    | 4 => some (.ldMNnHl nn)
    | 5 => some (.ldHlMNn nn)
    | 6 => some (.ldMNnA nn)
    | _ => some (.ldAMNn nn)
  | 3 => if fieldQ w.b0 = 0 then some (.incSs (pairOf p)) else some (.decSs (pairOf p))
  | 4 =>
    match reg8Of y with
    | some r => some (.incR r)
    | none => some .incMHl
  | 5 =>
    match reg8Of y with
    | some r => some (.decR r)
    | none => some .decMHl
  | 6 =>
    match reg8Of y with
    | some r => some (.ldRN r w.b1)
    | none => some (.ldMHlN w.b1)
  | _ =>
    match y with
    | 0 => some .rlca
    | 1 => some .rrca
    | 2 => some .rla
    | 3 => some .rra
    | 5 => some .cpl
    | _ => none

/-- The main page, x = 1: the loads between registers and (HL) (R93); 0x76 is not admitted. -/
def decodeMain1 (w : Window) : Option Instr :=
  match reg8Of (fieldY w.b0), reg8Of (fieldZ w.b0) with
  | some dst, some src => some (.ldRR dst src)
  | some dst, none => some (.ldRMHl dst)
  | none, some r => some (.ldMHlR r)
  | none, none => none

/-- The main page, x = 2: the accumulator operations (R93). -/
def decodeMain2 (w : Window) : Option Instr :=
  match reg8Of (fieldZ w.b0) with
  | some r => some (aluR (fieldY w.b0) r)
  | none => some (aluMHl (fieldY w.b0))

/-- The main page, x = 3 (R93). The prefix bytes 0xCB, 0xDD, 0xED, 0xFD do not come here. -/
def decodeMain3 (w : Window) : Option Instr :=
  let y := fieldY w.b0
  let p := fieldP w.b0
  let nn := mkWord w.b2 w.b1
  match fieldZ w.b0 with
  | 0 => some (.retCc (condOf y))
  | 1 =>
    if fieldQ w.b0 = 0 then some (.popQq (pair2Of p))
    else
      match p with
      | 0 => some .ret
      | 1 => some .exx
      | 2 => some .jpHl
      | _ => some .ldSpHl
  | 2 => some (.jpCcNn (condOf y) nn)
  | 3 =>
    match y with
    | 0 => some (.jpNn nn)
    | 1 => none
    | 2 => some (.outMNA w.b1)
    | 3 => some (.inAMN w.b1)
    | 4 => some .exMSpHl
    | 5 => some .exDeHl
    | 6 => some .di
    | _ => some .ei
  | 4 => some (.callCcNn (condOf y) nn)
  | 5 =>
    if fieldQ w.b0 = 0 then some (.pushQq (pair2Of p))
    else if p = 0 then some (.callNn nn)
    else none
  | 6 => some (aluN y w.b1)
  | _ => some (.rstP (octal y))

/-- The main page (R93, R100). -/
def decodeMain (w : Window) : Option Instr :=
  match fieldX w.b0 with
  | 0 => decodeMain0 w
  | 1 => decodeMain1 w
  | 2 => decodeMain2 w
  | _ => decodeMain3 w

/-- The 0xCB page (R94, R101): all 256 second bytes are admitted. -/
def decodeCb (op : Byte) : Instr :=
  let y := fieldY op
  match fieldX op, reg8Of (fieldZ op) with
  | 0, some r => rotR y r
  | 0, none => rotMHl y
  | 1, some r => .bitBR (octal y) r
  | 1, none => .bitBMHl (octal y)
  | 2, some r => .resBR (octal y) r
  | 2, none => .resBMHl (octal y)
  | _, some r => .setBR (octal y) r
  | _, none => .setBMHl (octal y)

/-- The 0xED page (R95, R102): the 27 admitted second bytes. -/
def decodeEd (w : Window) : Option Instr :=
  let y := fieldY w.b1
  let p := fieldP w.b1
  let nn := mkWord w.b3 w.b2
  match fieldX w.b1, fieldZ w.b1 with
  | 1, 2 => if fieldQ w.b1 = 0 then some (.sbcHlSs (pairOf p)) else some (.adcHlSs (pairOf p))
  | 1, 3 => if fieldQ w.b1 = 0 then some (.ldMNnDd nn (pairOf p)) else some (.ldDdMNn (pairOf p) nn)
  | 1, 6 =>
    match y with
    | 0 => some .im0
    | 2 => some .im1
    | 3 => some .im2
    | _ => none
  | 2, 0 =>
    match y with
    | 4 => some .ldi
    | 5 => some .ldd
    | 6 => some .ldir
    | 7 => some .lddr
    | _ => none
  | 2, 1 =>
    match y with
    | 4 => some .cpi
    | 5 => some .cpd
    | 6 => some .cpir
    | 7 => some .cpdr
    | _ => none
  | _, _ => none

/-- The 0xDD and 0xFD pages (R96, R103): the 39 admitted second bytes other than 0xCB. -/
def decodeIdx (i : Idx) (w : Window) : Option Instr :=
  let y := fieldY w.b1
  let p := fieldP w.b1
  let nn := mkWord w.b3 w.b2
  match fieldX w.b1 with
  | 0 =>
    match fieldZ w.b1 with
    | 1 =>
      if fieldQ w.b1 = 1 then some (.addIdxPp i (pairXOf p))
      else if p = 2 then some (.ldIdxNn i nn)
      else none
    | 2 =>
      match y with
      | 4 => some (.ldMNnIdx nn i)
      | 5 => some (.ldIdxMNn i nn)
      | _ => none
    | 3 =>
      match y with
      | 4 => some (.incIdx i)
      | 5 => some (.decIdx i)
      | _ => none
    | 4 => if y = 6 then some (.incMIdx i w.b2) else none
    | 5 => if y = 6 then some (.decMIdx i w.b2) else none
    | 6 => if y = 6 then some (.ldMIdxN i w.b2 w.b3) else none
    | _ => none
  | 1 =>
    match reg8Of y, reg8Of (fieldZ w.b1) with
    | some t, none => some (.ldRMIdx i t w.b2)
    | none, some r => some (.ldMIdxR i w.b2 r)
    | _, _ => none
  | 2 => if fieldZ w.b1 = 6 then some (aluMIdx i y w.b2) else none
  | _ =>
    match fieldZ w.b1, y with
    | 1, 4 => some (.popIdx i)
    | 1, 5 => some (.jpIdx i)
    | 1, 7 => some (.ldSpIdx i)
    | 3, 4 => some (.exMSpIdx i)
    | 5, 4 => some (.pushIdx i)
    | _, _ => none

/-- The 0xDD 0xCB and 0xFD 0xCB pages (R97): admitted only with z = 6. -/
def decodeIdxCb (i : Idx) (d op : Byte) : Option Instr :=
  let y := fieldY op
  if fieldZ op = 6 then
    match fieldX op with
    | 0 => some (rotMIdx i y d)
    | 1 => some (.bitBMIdx (octal y) i d)
    | 2 => some (.resBMIdx (octal y) i d)
    | _ => some (.setBMIdx (octal y) i d)
  else none

/-- An instruction, or the rejection that names the bytes read. -/
def orReject (bytes : List Byte) : Option Instr → Except Reject Instr
  | some i => .ok i
  | none => .error (.unimplemented bytes)

/-- Decoding after a 0xDD or 0xFD byte (R99). -/
def decodeIndexed (i : Idx) (w : Window) : Except Reject Instr :=
  if w.b1 = 0xCB then orReject [w.b0, w.b1, w.b2, w.b3] (decodeIdxCb i w.b2 w.b3)
  else orReject [w.b0, w.b1] (decodeIdx i w)

/-- The decode algorithm (R99), total on any bytes. -/
def decode (w : Window) : Except Reject Instr :=
  if w.b0 = 0xCB then .ok (decodeCb w.b1)
  else if w.b0 = 0xED then orReject [w.b0, w.b1] (decodeEd w)
  else if w.b0 = 0xDD then decodeIndexed .ix w
  else if w.b0 = 0xFD then decodeIndexed .iy w
  else orReject [w.b0] (decodeMain w)

/-- The 3-bit code of a register (R24). -/
def reg8Code : Reg8 → Nat
  | .b => 0
  | .c => 1
  | .d => 2
  | .e => 3
  | .h => 4
  | .l => 5
  | .a => 7

/-- The code of a pair in `rp` (R25). -/
def pairCode : Pair → Nat
  | .bc => 0
  | .de => 1
  | .hl => 2
  | .sp => 3

/-- The code of a pair in `rp2` (R26). -/
def pair2Code : Pair2 → Nat
  | .bc => 0
  | .de => 1
  | .hl => 2
  | .af => 3

/-- The code of a pair in `rpx` (R232). -/
def pairXCode : PairX → Nat
  | .bc => 0
  | .de => 1
  | .idx => 2
  | .sp => 3

/-- The code of a condition (R270). -/
def condCode : Cond → Nat
  | .nz => 0
  | .z => 1
  | .nc => 2
  | .c => 3
  | .po => 4
  | .pe => 5
  | .p => 6
  | .m => 7

/-- The prefix byte of an index register (R96). -/
def idxPrefix : Idx → Byte
  | .ix => 0xDD
  | .iy => 0xFD

/-- The opcode byte with the fields x, y, z (R92, R101): 64x + 8y + z. -/
def opXyz (x y z : Nat) : Byte := BitVec.ofNat 8 (64 * x + 8 * y + z)

/-- The opcode byte with the fields x, p, q, z (R92): y = 2p + q. -/
def opXpqz (x p q z : Nat) : Byte := opXyz x (2 * p + q) z

/-- The bytes of an instruction in ascending address order (R91 to R103). A JR whose condition has no
encoding is not well-formed; its bytes are those of the condition's code mod 4. -/
def encode : Instr → List Byte
  | .ldRR dst src => [opXyz 1 (reg8Code dst) (reg8Code src)]
  | .ldRN dst n => [opXyz 0 (reg8Code dst) 6, n]
  | .ldRMHl dst => [opXyz 1 (reg8Code dst) 6]
  | .ldMHlR r => [opXyz 1 6 (reg8Code r)]
  | .ldMHlN n => [0x36, n]
  | .ldRMIdx i t d => [idxPrefix i, opXyz 1 (reg8Code t) 6, d]
  | .ldMIdxR i d r => [idxPrefix i, opXyz 1 6 (reg8Code r), d]
  | .ldMIdxN i d n => [idxPrefix i, 0x36, d, n]
  | .ldAMBc => [0x0A]
  | .ldAMDe => [0x1A]
  | .ldMBcA => [0x02]
  | .ldMDeA => [0x12]
  | .ldAMNn nn => [0x3A, loByte nn, hiByte nn]
  | .ldMNnA nn => [0x32, loByte nn, hiByte nn]
  | .ldDdNn p nn => [opXpqz 0 (pairCode p) 0 1, loByte nn, hiByte nn]
  | .ldIdxNn i nn => [idxPrefix i, 0x21, loByte nn, hiByte nn]
  | .ldHlMNn nn => [0x2A, loByte nn, hiByte nn]
  | .ldMNnHl nn => [0x22, loByte nn, hiByte nn]
  | .ldDdMNn p nn => [0xED, opXpqz 1 (pairCode p) 1 3, loByte nn, hiByte nn]
  | .ldMNnDd nn p => [0xED, opXpqz 1 (pairCode p) 0 3, loByte nn, hiByte nn]
  | .ldIdxMNn i nn => [idxPrefix i, 0x2A, loByte nn, hiByte nn]
  | .ldMNnIdx nn i => [idxPrefix i, 0x22, loByte nn, hiByte nn]
  | .ldSpHl => [0xF9]
  | .ldSpIdx i => [idxPrefix i, 0xF9]
  | .addAR r => [opXyz 2 0 (reg8Code r)]
  | .addAN n => [opXyz 3 0 6, n]
  | .addAMHl => [opXyz 2 0 6]
  | .addAMIdx i d => [idxPrefix i, opXyz 2 0 6, d]
  | .adcAR r => [opXyz 2 1 (reg8Code r)]
  | .adcAN n => [opXyz 3 1 6, n]
  | .adcAMHl => [opXyz 2 1 6]
  | .adcAMIdx i d => [idxPrefix i, opXyz 2 1 6, d]
  | .subR r => [opXyz 2 2 (reg8Code r)]
  | .subN n => [opXyz 3 2 6, n]
  | .subMHl => [opXyz 2 2 6]
  | .subMIdx i d => [idxPrefix i, opXyz 2 2 6, d]
  | .sbcAR r => [opXyz 2 3 (reg8Code r)]
  | .sbcAN n => [opXyz 3 3 6, n]
  | .sbcAMHl => [opXyz 2 3 6]
  | .sbcAMIdx i d => [idxPrefix i, opXyz 2 3 6, d]
  | .andR r => [opXyz 2 4 (reg8Code r)]
  | .andN n => [opXyz 3 4 6, n]
  | .andMHl => [opXyz 2 4 6]
  | .andMIdx i d => [idxPrefix i, opXyz 2 4 6, d]
  | .xorR r => [opXyz 2 5 (reg8Code r)]
  | .xorN n => [opXyz 3 5 6, n]
  | .xorMHl => [opXyz 2 5 6]
  | .xorMIdx i d => [idxPrefix i, opXyz 2 5 6, d]
  | .orR r => [opXyz 2 6 (reg8Code r)]
  | .orN n => [opXyz 3 6 6, n]
  | .orMHl => [opXyz 2 6 6]
  | .orMIdx i d => [idxPrefix i, opXyz 2 6 6, d]
  | .cpR r => [opXyz 2 7 (reg8Code r)]
  | .cpN n => [opXyz 3 7 6, n]
  | .cpMHl => [opXyz 2 7 6]
  | .cpMIdx i d => [idxPrefix i, opXyz 2 7 6, d]
  | .incR r => [opXyz 0 (reg8Code r) 4]
  | .incMHl => [opXyz 0 6 4]
  | .incMIdx i d => [idxPrefix i, opXyz 0 6 4, d]
  | .decR r => [opXyz 0 (reg8Code r) 5]
  | .decMHl => [opXyz 0 6 5]
  | .decMIdx i d => [idxPrefix i, opXyz 0 6 5, d]
  | .addHlSs p => [opXpqz 0 (pairCode p) 1 1]
  | .addIdxPp i p => [idxPrefix i, opXpqz 0 (pairXCode p) 1 1]
  | .adcHlSs p => [0xED, opXpqz 1 (pairCode p) 1 2]
  | .sbcHlSs p => [0xED, opXpqz 1 (pairCode p) 0 2]
  | .incSs p => [opXpqz 0 (pairCode p) 0 3]
  | .decSs p => [opXpqz 0 (pairCode p) 1 3]
  | .incIdx i => [idxPrefix i, 0x23]
  | .decIdx i => [idxPrefix i, 0x2B]
  | .cpl => [0x2F]
  | .jpNn nn => [0xC3, loByte nn, hiByte nn]
  | .jpCcNn cc nn => [opXyz 3 (condCode cc) 2, loByte nn, hiByte nn]
  | .jpHl => [0xE9]
  | .jpIdx i => [idxPrefix i, 0xE9]
  | .jrE e => [0x18, e]
  | .jrCcE cc e => [opXyz 0 (4 + condCode cc % 4) 0, e]
  | .djnzE e => [0x10, e]
  | .callNn nn => [0xCD, loByte nn, hiByte nn]
  | .callCcNn cc nn => [opXyz 3 (condCode cc) 4, loByte nn, hiByte nn]
  | .ret => [0xC9]
  | .retCc cc => [opXyz 3 (condCode cc) 0]
  | .rstP t => [opXyz 3 t.val 7]
  | .pushQq p => [opXpqz 3 (pair2Code p) 0 5]
  | .popQq p => [opXpqz 3 (pair2Code p) 0 1]
  | .pushIdx i => [idxPrefix i, 0xE5]
  | .popIdx i => [idxPrefix i, 0xE1]
  | .exDeHl => [0xEB]
  | .exAfAf => [0x08]
  | .exx => [0xD9]
  | .exMSpHl => [0xE3]
  | .exMSpIdx i => [idxPrefix i, 0xE3]
  | .rlca => [0x07]
  | .rrca => [0x0F]
  | .rla => [0x17]
  | .rra => [0x1F]
  | .rlcR r => [0xCB, opXyz 0 0 (reg8Code r)]
  | .rlcMHl => [0xCB, opXyz 0 0 6]
  | .rlcMIdx i d => [idxPrefix i, 0xCB, d, opXyz 0 0 6]
  | .rrcR r => [0xCB, opXyz 0 1 (reg8Code r)]
  | .rrcMHl => [0xCB, opXyz 0 1 6]
  | .rrcMIdx i d => [idxPrefix i, 0xCB, d, opXyz 0 1 6]
  | .rlR r => [0xCB, opXyz 0 2 (reg8Code r)]
  | .rlMHl => [0xCB, opXyz 0 2 6]
  | .rlMIdx i d => [idxPrefix i, 0xCB, d, opXyz 0 2 6]
  | .rrR r => [0xCB, opXyz 0 3 (reg8Code r)]
  | .rrMHl => [0xCB, opXyz 0 3 6]
  | .rrMIdx i d => [idxPrefix i, 0xCB, d, opXyz 0 3 6]
  | .slaR r => [0xCB, opXyz 0 4 (reg8Code r)]
  | .slaMHl => [0xCB, opXyz 0 4 6]
  | .slaMIdx i d => [idxPrefix i, 0xCB, d, opXyz 0 4 6]
  | .sraR r => [0xCB, opXyz 0 5 (reg8Code r)]
  | .sraMHl => [0xCB, opXyz 0 5 6]
  | .sraMIdx i d => [idxPrefix i, 0xCB, d, opXyz 0 5 6]
  | .sllR r => [0xCB, opXyz 0 6 (reg8Code r)]
  | .sllMHl => [0xCB, opXyz 0 6 6]
  | .sllMIdx i d => [idxPrefix i, 0xCB, d, opXyz 0 6 6]
  | .srlR r => [0xCB, opXyz 0 7 (reg8Code r)]
  | .srlMHl => [0xCB, opXyz 0 7 6]
  | .srlMIdx i d => [idxPrefix i, 0xCB, d, opXyz 0 7 6]
  | .bitBR b r => [0xCB, opXyz 1 b.val (reg8Code r)]
  | .bitBMHl b => [0xCB, opXyz 1 b.val 6]
  | .bitBMIdx b i d => [idxPrefix i, 0xCB, d, opXyz 1 b.val 6]
  | .resBR b r => [0xCB, opXyz 2 b.val (reg8Code r)]
  | .resBMHl b => [0xCB, opXyz 2 b.val 6]
  | .resBMIdx b i d => [idxPrefix i, 0xCB, d, opXyz 2 b.val 6]
  | .setBR b r => [0xCB, opXyz 3 b.val (reg8Code r)]
  | .setBMHl b => [0xCB, opXyz 3 b.val 6]
  | .setBMIdx b i d => [idxPrefix i, 0xCB, d, opXyz 3 b.val 6]
  | .ldi => [0xED, 0xA0]
  | .ldd => [0xED, 0xA8]
  | .ldir => [0xED, 0xB0]
  | .lddr => [0xED, 0xB8]
  | .cpi => [0xED, 0xA1]
  | .cpd => [0xED, 0xA9]
  | .cpir => [0xED, 0xB1]
  | .cpdr => [0xED, 0xB9]
  | .inAMN n => [0xDB, n]
  | .outMNA n => [0xD3, n]
  | .di => [0xF3]
  | .ei => [0xFB]
  | .im0 => [0xED, 0x46]
  | .im1 => [0xED, 0x56]
  | .im2 => [0xED, 0x5E]
  | .nop => [0x00]

/-- The length of an instruction in bytes (`len` of R12; the formats of R91). -/
def instrLength : Instr → Nat
  | .ldRR _ _ => 1
  | .ldRN _ _ => 2
  | .ldRMHl _ => 1
  | .ldMHlR _ => 1
  | .ldMHlN _ => 2
  | .ldRMIdx _ _ _ => 3
  | .ldMIdxR _ _ _ => 3
  | .ldMIdxN _ _ _ => 4
  | .ldAMBc => 1
  | .ldAMDe => 1
  | .ldMBcA => 1
  | .ldMDeA => 1
  | .ldAMNn _ => 3
  | .ldMNnA _ => 3
  | .ldDdNn _ _ => 3
  | .ldIdxNn _ _ => 4
  | .ldHlMNn _ => 3
  | .ldMNnHl _ => 3
  | .ldDdMNn _ _ => 4
  | .ldMNnDd _ _ => 4
  | .ldIdxMNn _ _ => 4
  | .ldMNnIdx _ _ => 4
  | .ldSpHl => 1
  | .ldSpIdx _ => 2
  | .addAR _ => 1
  | .addAN _ => 2
  | .addAMHl => 1
  | .addAMIdx _ _ => 3
  | .adcAR _ => 1
  | .adcAN _ => 2
  | .adcAMHl => 1
  | .adcAMIdx _ _ => 3
  | .subR _ => 1
  | .subN _ => 2
  | .subMHl => 1
  | .subMIdx _ _ => 3
  | .sbcAR _ => 1
  | .sbcAN _ => 2
  | .sbcAMHl => 1
  | .sbcAMIdx _ _ => 3
  | .andR _ => 1
  | .andN _ => 2
  | .andMHl => 1
  | .andMIdx _ _ => 3
  | .xorR _ => 1
  | .xorN _ => 2
  | .xorMHl => 1
  | .xorMIdx _ _ => 3
  | .orR _ => 1
  | .orN _ => 2
  | .orMHl => 1
  | .orMIdx _ _ => 3
  | .cpR _ => 1
  | .cpN _ => 2
  | .cpMHl => 1
  | .cpMIdx _ _ => 3
  | .incR _ => 1
  | .incMHl => 1
  | .incMIdx _ _ => 3
  | .decR _ => 1
  | .decMHl => 1
  | .decMIdx _ _ => 3
  | .addHlSs _ => 1
  | .addIdxPp _ _ => 2
  | .adcHlSs _ => 2
  | .sbcHlSs _ => 2
  | .incSs _ => 1
  | .decSs _ => 1
  | .incIdx _ => 2
  | .decIdx _ => 2
  | .cpl => 1
  | .jpNn _ => 3
  | .jpCcNn _ _ => 3
  | .jpHl => 1
  | .jpIdx _ => 2
  | .jrE _ => 2
  | .jrCcE _ _ => 2
  | .djnzE _ => 2
  | .callNn _ => 3
  | .callCcNn _ _ => 3
  | .ret => 1
  | .retCc _ => 1
  | .rstP _ => 1
  | .pushQq _ => 1
  | .popQq _ => 1
  | .pushIdx _ => 2
  | .popIdx _ => 2
  | .exDeHl => 1
  | .exAfAf => 1
  | .exx => 1
  | .exMSpHl => 1
  | .exMSpIdx _ => 2
  | .rlca => 1
  | .rrca => 1
  | .rla => 1
  | .rra => 1
  | .rlcR _ => 2
  | .rlcMHl => 2
  | .rlcMIdx _ _ => 4
  | .rrcR _ => 2
  | .rrcMHl => 2
  | .rrcMIdx _ _ => 4
  | .rlR _ => 2
  | .rlMHl => 2
  | .rlMIdx _ _ => 4
  | .rrR _ => 2
  | .rrMHl => 2
  | .rrMIdx _ _ => 4
  | .slaR _ => 2
  | .slaMHl => 2
  | .slaMIdx _ _ => 4
  | .sraR _ => 2
  | .sraMHl => 2
  | .sraMIdx _ _ => 4
  | .sllR _ => 2
  | .sllMHl => 2
  | .sllMIdx _ _ => 4
  | .srlR _ => 2
  | .srlMHl => 2
  | .srlMIdx _ _ => 4
  | .bitBR _ _ => 2
  | .bitBMHl _ => 2
  | .bitBMIdx _ _ _ => 4
  | .resBR _ _ => 2
  | .resBMHl _ => 2
  | .resBMIdx _ _ _ => 4
  | .setBR _ _ => 2
  | .setBMHl _ => 2
  | .setBMIdx _ _ _ => 4
  | .ldi => 2
  | .ldd => 2
  | .ldir => 2
  | .lddr => 2
  | .cpi => 2
  | .cpd => 2
  | .cpir => 2
  | .cpdr => 2
  | .inAMN _ => 2
  | .outMNA _ => 2
  | .di => 1
  | .ei => 1
  | .im0 => 2
  | .im1 => 2
  | .im2 => 2
  | .nop => 1

/-- The window of an instruction whose bits are `w`, numbered as spec/opcode_table.json numbers them
(R110: the number is read over the whole row, byte 0 in the most significant position of its `nbits`
bits); every byte after the row's is 0. Log entry 9. -/
def tableWindow (nbits w : Nat) : Window :=
  let n := nbits / 8
  let byte := fun k => if k < n then BitVec.ofNat 8 (w / 256 ^ (n - 1 - k)) else 0
  { b0 := byte 0, b1 := byte 1, b2 := byte 2, b3 := byte 3 }

/-- What the decoder reads from an instruction of the opcode table whose bits are `w`. -/
def decodeTableWord (nbits w : Nat) : Option Instr :=
  match decode (tableWindow nbits w) with
  | .ok i => some i
  | .error _ => none

end Sys2Proof
end

