-- ==== Sys2Proof/Config.lean ====
section
/-! DEFINITION. What the platform around the core fixes (spec/00_scope.md R7): the kinds of memory
addresses, the policy for flag bits 5 and 3, the accesses the core makes of its collaborators, and the
free values, which have no body. -/

namespace Sys2Proof

/-- The parameter `XY_POLICY`: how bits 5 and 3 of F are produced (R131). -/
inductive XyPolicy where
  | result
  | draw
  deriving DecidableEq, Repr

/-- The parameter `MEM_KIND` of an address (R63): what a write to it does. For an address that is not
`ram`, `rom` says what a read returns (R64): `true` the initial contents (ROM), `false` the value
`UNMAPPED_READ_VALUE` (unmapped). -/
inductive MemKind where
  | ram
  | ignore (rom : Bool)
  | fault (rom : Bool)
  deriving DecidableEq, Repr

/-- A range of addresses, both ends included, with one kind. -/
structure Region where
  first : Nat
  last : Nat
  kind : MemKind
  deriving DecidableEq, Repr

/-- The platform: the parameters `MEM_KIND`, `UNMAPPED_READ_VALUE` and `XY_POLICY` of R7 and the ports
whose write the I/O collaborator rejects (R402). -/
structure Platform where
  /-- The first range that holds an address gives its kind; an address in none is `ram`. -/
  regions : List Region
  unmappedRead : Byte
  xyPolicy : XyPolicy
  rejectedPorts : List Byte
  deriving DecidableEq, Repr

/-- The default platform of R7: every address `ram`, 0xEE, `result`, no port rejects a write. -/
def Platform.default : Platform :=
  { regions := [], unmappedRead := 0xEE, xyPolicy := .result, rejectedPorts := [] }

/-- One access of the core to a collaborator (R66, R81). A write that the collaborator rejects is none. -/
inductive Access where
  | memRead (addr : Word) (value : Byte)
  | memWrite (addr : Word) (value : Byte)
  | ioRead (port : Byte) (value : Byte)
  | ioWrite (port : Byte) (value : Byte)
  deriving DecidableEq, Repr

/-- The oracle `IO_READ` (R67): the byte the I/O collaborator answers for a port after a history of
accesses. Nothing is known of it: a FREE VALUE, log entry 3. -/
opaque Config.ioRead : Byte → List Access → Byte

/-- The byte x that `WriteF` draws under `XY_POLICY = draw` (R131), the n-th draw of a run. Nothing is
known of it: a FREE VALUE, log entry 4. -/
opaque Config.xyDraw : Nat → Byte

end Sys2Proof
end

