-- ==== Sys2Proof/Machine/State.lean ====
section
/-! DEFINITION. Everything the machine holds (spec/10_state.md R20, R41; the memory and the platform of
spec/20_memory.md), the ways a step can stop (spec/60_exceptions.md), and the state after reset (R38, R440). -/

namespace Sys2Proof.Machine

/-- The interrupt mode: a selector of three values (R34). -/
inductive IntMode where
  | mode0
  | mode1
  | mode2
  deriving DecidableEq, Repr

/-- The two writes a collaborator can reject (R400, R402). -/
inductive Violation where
  | unmappedWrite
  | ioWrite
  deriving DecidableEq, Repr

/-- The fault status (R41) with the payloads of R400. -/
inductive FaultStatus where
  | none
  /-- The pc of the encoding and the bytes the decoder read. -/
  | unimplemented (pc : Word) (bytes : List Byte)
  /-- The pc of the instruction, the kind of write, its address or (zero-extended) port, and the value. -/
  | contractViolation (pc : Word) (kind : Violation) (target : Word) (value : Byte)
  deriving DecidableEq, Repr

/-- The state of the machine. The primed fields are the shadow set (R22). -/
@[ext]
structure State where
  a : Byte
  f : Byte
  b : Byte
  c : Byte
  d : Byte
  e : Byte
  h : Byte
  l : Byte
  a' : Byte
  f' : Byte
  b' : Byte
  c' : Byte
  d' : Byte
  e' : Byte
  h' : Byte
  l' : Byte
  ix : Word
  iy : Word
  sp : Word
  pc : Word
  /-- The interrupt-enable flag IFF (R33). -/
  iff : Bool
  /-- The interrupt mode IM (R34). -/
  im : IntMode
  /-- The fault status (R41); `none` in every state a step answers. -/
  fault : FaultStatus
  /-- Memory (R60 to R64): strictly rising addresses below 65536, no entry that reads as an unlisted address. -/
  mem : List Host.Cell
  /-- The platform's parameters (R7); no step changes them. Log entry 2. -/
  platform : Platform
  /-- The accesses made so far, most recent first (R66, R81). Log entry 6. -/
  history : List Access
  /-- The model's own counter of the draws of `XY_POLICY = draw` (R131). Log entry 4. -/
  draws : Nat
  deriving DecidableEq, Repr

/-- How a step stops the machine (R400): the run has failed. Each carries the state the fault leaves, whose
field `fault` holds the payload. -/
inductive Fault where
  /-- Raised by `step` in decode for every encoding outside the admitted set (R105, R401). Safe: the spec
  gives such an encoding no other effect. -/
  | unimplemented (after : State)
  /-- Raised by the meanings that write memory or a port, at a write the platform rejects (R402). Safe: the
  state is that of the accesses made before the rejected one. -/
  | contractViolation (after : State)
  deriving DecidableEq, Repr

/-- Why there is no step at all. -/
inductive Refusal where
  /-- Raised by an arm of `exec` whose instruction has no meaning yet. Safe. -/
  | notModelled (mnemonic : String)
  /-- Raised by `step` on a faulted core: no step is defined until `reset()` (R407, U2). Safe. -/
  | halted (status : FaultStatus)
  deriving DecidableEq, Repr

/-- The state `reset()` installs after construction (R38, R440), on the default platform of R7, with
nothing listed in memory. -/
def State.reset : State :=
  { a := 0xFF, f := 0xFF, b := 0xFF, c := 0xFF, d := 0xFF, e := 0xFF, h := 0xFF, l := 0xFF
    a' := 0xFF, f' := 0xFF, b' := 0xFF, c' := 0xFF, d' := 0xFF, e' := 0xFF, h' := 0xFF, l' := 0xFF
    ix := 0xFFFF, iy := 0xFFFF, sp := 0xFFFF, pc := 0x0000
    iff := true, im := .mode0, fault := .none
    mem := [], platform := Platform.default, history := [], draws := 0 }

end Sys2Proof.Machine
end

