-- ==== Sys2Proof/Machine/Ops.lean ====
section
/-! DEFINITION. The named operations over memory, registers, I/O and the stack (spec/00_scope.md R9 to R14,
spec/20_memory.md, spec/45_stack_exchange.md R290 and R291), the fetch, raising a fault
(spec/60_exceptions.md R401, R402) and the host's reset (spec/70_reset_and_hazards.md R440). -/

namespace Sys2Proof.Machine

/-- What a step or a part of one answers. -/
abbrev Out := Host.Outcome State Fault Refusal

/-- Go on with `k` from the next state of `o`; a fault or a refusal ends the step (R402). -/
def andThen (o : Out) (k : State → Out) : Out :=
  match o with
  | .next s => k s
  | .fault r => .fault r
  | .refused r => .refused r

/-! Faults. -/

/-- `raise Unimplemented(bytes)` (R401): only the fault status changes. -/
def raiseUnimplemented (bytes : List Byte) (s : State) : Out :=
  .fault (.unimplemented { s with fault := .unimplemented s.pc bytes })

/-- `raise ContractViolation` at a rejected write (R402): what was done before it stands. pc still is the
instruction's own, because every rule assigns pc last. -/
def raiseViolation (kind : Violation) (target : Word) (value : Byte) (s : State) : Out :=
  .fault (.contractViolation { s with fault := .contractViolation s.pc kind target value })

/-! Memory: a sparse list in canonical form. -/

/-- What an address that no write has listed holds. DESIGN CHOICE, unsafe: log entry 1. -/
def memDefault : Byte := 0x00

/-- The byte a memory holds at an address. -/
def memGet : List Host.Cell → Nat → Byte
  | [], _ => memDefault
  | (k, w) :: m, x => if k = x then w else memGet m x

/-- Memory with no entry at `x`. -/
def memErase : List Host.Cell → Nat → List Host.Cell
  | [], _ => []
  | (k, w) :: m, x => if k = x then memErase m x else (k, w) :: memErase m x

/-- Memory with a new entry before the first address above `x`. -/
def memInsert : List Host.Cell → Nat → Byte → List Host.Cell
  | [], x, v => [(x, v)]
  | (k, w) :: m, x, v => if x < k then (x, v) :: (k, w) :: m else (k, w) :: memInsert m x v

/-- Memory with byte `v` at `x`, in canonical form again: writing what an unlisted address holds removes
the entry. -/
def memPut (m : List Host.Cell) (x : Nat) (v : Byte) : List Host.Cell :=
  if v = memDefault then memErase m x else memInsert (memErase m x) x v

/-- Every address of the list is at least `low` and below 65536, the addresses rise strictly, and no entry
equals what an unlisted address holds. -/
def memWfFrom : Nat → List Host.Cell → Bool
  | _, [] => true
  | low, (k, w) :: m => decide (low ≤ k) && decide (k < 65536) && decide (w ≠ memDefault) && memWfFrom (k + 1) m

/-- The canonical form of memory. -/
def memWf (m : List Host.Cell) : Bool := memWfFrom 0 m

/-- The kind of an address in a list of ranges: that of the first range holding it, else `ram` (R63). -/
def kindIn : List Region → Nat → MemKind
  | [], _ => .ram
  | r :: rs, x => if r.first ≤ x ∧ x ≤ r.last then r.kind else kindIn rs x

/-- `MEM_KIND(addr)` (R63). -/
def memKind (s : State) (addr : Word) : MemKind := kindIn s.platform.regions addr.toNat

/-- Whether a read of an address of this kind gives the byte memory holds, or `UNMAPPED_READ_VALUE` (R64). -/
def kindHolds : MemKind → Bool
  | .ram => true
  | .ignore rom => rom
  | .fault rom => rom

/-- The byte a read of `addr` returns (R60, R63, R64); every address has one. -/
def peek (s : State) (addr : Word) : Byte :=
  if kindHolds (memKind s addr) then memGet s.mem addr.toNat else s.platform.unmappedRead

/-- Add one access to the history (R81). -/
def record (x : Access) (s : State) : State := { s with history := x :: s.history }

/-- `MemRead(addr, 1)` (R60): the byte, and the state that has made the access. -/
def memRead (addr : Word) (s : State) : Byte × State :=
  (peek s addr, record (.memRead addr (peek s addr)) s)

/-- `MemRead(addr, 2)` (R11): the low byte first, the high byte at addr + 1. -/
def memRead2 (addr : Word) (s : State) : Word × State :=
  let (lo, s) := memRead addr s
  let (hi, s) := memRead (addr + 1) s
  (mkWord hi lo, s)

/-- `MemWrite(addr, 1, v)` (R61, R63): stored, dropped, or a violation. -/
def memWrite (addr : Word) (v : Byte) (s : State) : Out :=
  match memKind s addr with
  | .ram => .next (record (.memWrite addr v) { s with mem := memPut s.mem addr.toNat v })
  | .ignore _ => .next (record (.memWrite addr v) s)
  | .fault _ => raiseViolation .unmappedWrite addr v s

/-- `MemWrite(addr, 2, v)` (R11): the low byte first, the high byte at addr + 1. -/
def memWrite2 (addr v : Word) (s : State) : Out :=
  andThen (memWrite addr (loByte v) s) fun s => memWrite (addr + 1) (hiByte v) s

/-! Input and output. -/

/-- `IoRead(port)` (R67): the oracle's answer to the port and the history so far. -/
def ioRead (port : Byte) (s : State) : Byte × State :=
  (Config.ioRead port s.history, record (.ioRead port (Config.ioRead port s.history)) s)

/-- `IoWrite(port, v)` (R66): an event, or a violation on a port whose write the platform rejects (R402). -/
def ioWrite (port v : Byte) (s : State) : Out :=
  if port ∈ s.platform.rejectedPorts then raiseViolation .ioWrite (port.setWidth 16) v s
  else .next (record (.ioWrite port v) s)

/-! Registers. -/

/-- `r8[c]` (R24). -/
def getR8 (r : Reg8) (s : State) : Byte :=
  match r with
  | .b => s.b
  | .c => s.c
  | .d => s.d
  | .e => s.e
  | .h => s.h
  | .l => s.l
  | .a => s.a

/-- `r8[c] <- v` (R9, R24). -/
def setR8 (r : Reg8) (v : Byte) (s : State) : State :=
  match r with
  | .b => { s with b := v }
  | .c => { s with c := v }
  | .d => { s with d := v }
  | .e => { s with e := v }
  | .h => { s with h := v }
  | .l => { s with l := v }
  | .a => { s with a := v }

/-- The pair BC, a view of B and C (R27). -/
def getBc (s : State) : Word := mkWord s.b s.c

/-- The pair DE (R27). -/
def getDe (s : State) : Word := mkWord s.d s.e

/-- The pair HL (R27). -/
def getHl (s : State) : Word := mkWord s.h s.l

/-- The pair AF: A high, F low (R26). -/
def getAf (s : State) : Word := mkWord s.a s.f

/-- `BC <- v` (R9). -/
def setBc (v : Word) (s : State) : State := { s with b := hiByte v, c := loByte v }

/-- `DE <- v` (R9). -/
def setDe (v : Word) (s : State) : State := { s with d := hiByte v, e := loByte v }

/-- `HL <- v` (R9). -/
def setHl (v : Word) (s : State) : State := { s with h := hiByte v, l := loByte v }

/-- `AF <- v`: all eight bits of F, not through WriteF (R131, R293). -/
def setAf (v : Word) (s : State) : State := { s with a := hiByte v, f := loByte v }

/-- `SP <- v` (R28). -/
def setSp (v : Word) (s : State) : State := { s with sp := v }

/-- `rp[p]` (R25). -/
def getPair (p : Pair) (s : State) : Word :=
  match p with
  | .bc => getBc s
  | .de => getDe s
  | .hl => getHl s
  | .sp => s.sp

/-- `rp[p] <- v` (R25). -/
def setPair (p : Pair) (v : Word) (s : State) : State :=
  match p with
  | .bc => setBc v s
  | .de => setDe v s
  | .hl => setHl v s
  | .sp => setSp v s

/-- `rp2[p]` (R26). -/
def getPair2 (p : Pair2) (s : State) : Word :=
  match p with
  | .bc => getBc s
  | .de => getDe s
  | .hl => getHl s
  | .af => getAf s

/-- `rp2[p] <- v` (R26). -/
def setPair2 (p : Pair2) (v : Word) (s : State) : State :=
  match p with
  | .bc => setBc v s
  | .de => setDe v s
  | .hl => setHl v s
  | .af => setAf v s

/-- `IDX` (R9, R96). -/
def getIdx (i : Idx) (s : State) : Word :=
  match i with
  | .ix => s.ix
  | .iy => s.iy

/-- `IDX <- v` (R9, R96). -/
def setIdx (i : Idx) (v : Word) (s : State) : State :=
  match i with
  | .ix => { s with ix := v }
  | .iy => { s with iy := v }

/-- `rpx[p]` (R232): code 2 is the index register itself. -/
def getPairX (i : Idx) (p : PairX) (s : State) : Word :=
  match p with
  | .bc => getBc s
  | .de => getDe s
  | .idx => getIdx i s
  | .sp => s.sp

/-- `next = (pc + len) mod 65536` (R12). -/
def nextPc (len : Nat) (s : State) : Word := s.pc + BitVec.ofNat 16 len

/-- `pc <- next` (R12). -/
def advance (len : Nat) (s : State) : State := { s with pc := nextPc len s }

/-- `pc <- target`. -/
def setPc (target : Word) (s : State) : State := { s with pc := target }

/-- The end of a rule that does not assign pc itself (R12). -/
def finish (len : Nat) (s : State) : Out := .next (advance len s)

/-! The stack primitives. -/

/-- `Push16(v)` (R290): high byte at SP - 1, then low byte at SP - 2, then SP. -/
def push16 (v : Word) (s : State) : Out :=
  andThen (memWrite (s.sp - 1) (hiByte v) s) fun s =>
  andThen (memWrite (s.sp - 2) (loByte v) s) fun s =>
  .next (setSp (s.sp - 2) s)

/-- `Pop16()` (R291): low byte at SP, then high byte at SP + 1, then SP. -/
def pop16 (s : State) : Word × State :=
  let (lo, s) := memRead s.sp s
  let (hi, s) := memRead (s.sp + 1) s
  (mkWord hi lo, setSp (s.sp + 2) s)

/-! Fetch and the host. -/

/-- The four bytes at pc upward, mod 65536, of which the decoder reads the first ones (R75, R99). -/
def fetchWindow (s : State) : Window :=
  { b0 := peek s s.pc, b1 := peek s (s.pc + 1), b2 := peek s (s.pc + 2), b3 := peek s (s.pc + 3) }

/-- The reads of `n` bytes at `addr` upward, in that order (R75). -/
def readFrom : Nat → Word → State → State
  | 0, _, s => s
  | n + 1, addr, s => readFrom n (addr + 1) (memRead addr s).2

/-- The state that has made the decoder's `n` fetch reads (R75, R99). -/
def fetched (n : Nat) (s : State) : State := readFrom n s.pc s

/-- `reset()` (R440, R441): registers, IFF, IM and the fault status; memory and I/O are not touched. A host
action, no part of a step. -/
def hostReset (s : State) : State :=
  { State.reset with mem := s.mem, platform := s.platform, history := s.history, draws := s.draws }

/-- Put a byte where a fetch of `addr` finds it: into memory, whatever a write to the address would do, and,
if the platform calls the address unmapped, make it ROM with the same answer to writes. Log entry 11. -/
def placeByte (addr : Word) (v : Byte) (s : State) : State :=
  let asRom := fun k => { first := addr.toNat, last := addr.toNat, kind := k : Region }
  let placed := { s with mem := memPut s.mem addr.toNat v }
  match memKind s addr with
  | .ignore false =>
    { placed with platform := { s.platform with regions := asRom (.ignore true) :: s.platform.regions } }
  | .fault false =>
    { placed with platform := { s.platform with regions := asRom (.fault true) :: s.platform.regions } }
  | _ => placed

/-- Put the four bytes of a window at pc upward, and clear the fault status, so that the next step runs. -/
def placeWindow (w : Window) (s : State) : State :=
  placeByte (s.pc + 3) w.b3 (placeByte (s.pc + 2) w.b2
    (placeByte (s.pc + 1) w.b1 (placeByte s.pc w.b0 { s with fault := .none })))

end Sys2Proof.Machine
end

