-- ==== Sys2Proof/Machine/Operands.lean ====
section
/-! DEFINITION. The address resolver and the operand forms (spec/41_address_resolver.md) and the condition
tests (spec/44_control_transfer.md R270). -/

namespace Sys2Proof.Machine

/-- `EA_IDX(d)` (R163): the index register plus the signed displacement, mod 65536. -/
def eaIdx (i : Idx) (d : Byte) (s : State) : Word := getIdx i s + sext16 d

/-- `EA_REL(e)` (R164): the address after the two-byte instruction plus the signed displacement. -/
def eaRel (e : Byte) (s : State) : Word := nextPc 2 s + sext16 e

/-- The condition test (R270), on F as it is when the instruction starts. -/
def condHolds (cc : Cond) (s : State) : Bool :=
  match cc with
  | .nz => !s.f.getLsbD 6
  | .z => s.f.getLsbD 6
  | .nc => !s.f.getLsbD 0
  | .c => s.f.getLsbD 0
  | .po => !s.f.getLsbD 2
  | .pe => s.f.getLsbD 2
  | .p => !s.f.getLsbD 7
  | .m => s.f.getLsbD 7

/-- The carry flag F.C as an operand. -/
def carry (s : State) : Bool := s.f.getLsbD 0

/-- The source operand `s` of an accumulator operation (R167). -/
inductive Src where
  | reg (r : Reg8)
  | imm (n : Byte)
  | atHl
  | atIdx (i : Idx) (d : Byte)
  deriving DecidableEq, Repr

/-- `Read_s` (R167): the operand byte, and the state that has made the access, if there is one. -/
def readSrc (x : Src) (s : State) : Byte × State :=
  match x with
  | .reg r => (getR8 r s, s)
  | .imm n => (n, s)
  | .atHl => memRead (getHl s) s
  | .atIdx i d => memRead (eaIdx i d s) s

/-- The memory forms of the location `m` (R168); the register form is `getR8` and `setR8`. -/
inductive Loc where
  | atHl
  | atIdx (i : Idx) (d : Byte)
  deriving DecidableEq, Repr

/-- The address of a memory location `m` (R161, R163). -/
def locAddr (x : Loc) (s : State) : Word :=
  match x with
  | .atHl => getHl s
  | .atIdx i d => eaIdx i d s

end Sys2Proof.Machine
end

