-- ==== Sys2Proof/Machine/Flags.lean ====
section
/-! DEFINITION. The flag unit (spec/40_flag_unit.md R130 to R145) and the shift function (R314). -/

namespace Sys2Proof.Machine

/-- The flag byte with the given bits (R10, R30): S, Z, b5, H, b3, PV, N, C are bits 7 to 0. -/
def packFlags (s z b5 h b3 pv n c : Bool) : Byte :=
  BitVec.ofBool s ++ BitVec.ofBool z ++ BitVec.ofBool b5 ++ BitVec.ofBool h ++
    BitVec.ofBool b3 ++ BitVec.ofBool pv ++ BitVec.ofBool n ++ BitVec.ofBool c

/-- The flag S of a flag byte (R10). -/
def flagS (f : Byte) : Bool := f.getLsbD 7

/-- The flag Z. -/
def flagZ (f : Byte) : Bool := f.getLsbD 6

/-- Bit 5 of a flag byte. -/
def flag5 (f : Byte) : Bool := f.getLsbD 5

/-- The flag H. -/
def flagH (f : Byte) : Bool := f.getLsbD 4

/-- Bit 3 of a flag byte. -/
def flag3 (f : Byte) : Bool := f.getLsbD 3

/-- The flag PV. -/
def flagPV (f : Byte) : Bool := f.getLsbD 2

/-- The flag N. -/
def flagN (f : Byte) : Bool := f.getLsbD 1

/-- The flag C. -/
def flagC (f : Byte) : Bool := f.getLsbD 0

/-- `parity` (R130): true iff the number of set bits is even. -/
def parity (v : Byte) : Bool :=
  !(v.getLsbD 0 ^^ v.getLsbD 1 ^^ v.getLsbD 2 ^^ v.getLsbD 3 ^^
    v.getLsbD 4 ^^ v.getLsbD 5 ^^ v.getLsbD 6 ^^ v.getLsbD 7)

/-- The bits 5 and 3 that `XY_POLICY = draw` leaves open (R131). -/
def xyMask : Byte := 0x28

/-- `WriteF(f)` (R131). -/
def writeF (f : Byte) (s : State) : State :=
  match s.platform.xyPolicy with
  | .result => { s with f := f }
  | .draw =>
    { s with f := (f &&& ~~~xyMask) ||| (Config.xyDraw s.draws &&& xyMask), draws := s.draws + 1 }

/-- The flags whose bits S, Z, b5 and b3 follow the result byte `r` (`sz53`, R132), with the other four given. -/
def flagsOf (r : Byte) (h pv n c : Bool) : Byte :=
  packFlags (r.getLsbD 7) (r == 0) (r.getLsbD 5) h (r.getLsbD 3) pv n c

/-- `sz53` (R132). -/
def sz53 (r : Byte) : Byte := flagsOf r false false false false

/-- `add8(a, b, cin)` (R133): the result and the flags. -/
def add8 (a b : Byte) (cin : Bool) : Byte × Byte :=
  let sum := a.toNat + b.toNat + cin.toNat
  let r := BitVec.ofNat 8 sum
  let half := a.toNat % 16 + b.toNat % 16 + cin.toNat
  let overflow := a.getLsbD 7 == b.getLsbD 7 && r.getLsbD 7 != a.getLsbD 7
  (r, flagsOf r (decide (half > 15)) overflow false (decide (sum > 255)))

/-- `sub8(a, b, cin)` (R134): minuend, subtrahend, borrow-in. -/
def sub8 (a b : Byte) (cin : Bool) : Byte × Byte :=
  let diff : Int := (a.toNat : Int) - b.toNat - cin.toNat
  let r := BitVec.ofInt 8 diff
  let half : Int := (a.toNat % 16 : Nat) - (b.toNat % 16 : Nat) - cin.toNat
  let overflow := a.getLsbD 7 != b.getLsbD 7 && r.getLsbD 7 != a.getLsbD 7
  (r, flagsOf r (decide (half < 0)) overflow true (decide (diff < 0)))

/-- `inc8(v, Fold)` (R135). -/
def inc8 (v fold : Byte) : Byte × Byte :=
  let r := v + 1
  (r, flagsOf r (v.toNat % 16 == 0xF) (v == 0x7F) false (flagC fold))

/-- `dec8(v, Fold)` (R136). -/
def dec8 (v fold : Byte) : Byte × Byte :=
  let r := v - 1
  (r, flagsOf r (v.toNat % 16 == 0x0) (v == 0x80) true (flagC fold))

/-- The three logic operations (R137). -/
inductive LogicOp where
  | and
  | or
  | xor
  deriving DecidableEq, Repr

/-- `logic8(op, a, b)` (R137). -/
def logic8 (op : LogicOp) (a b : Byte) : Byte × Byte :=
  let r := match op with
    | .and => a &&& b
    | .or => a ||| b
    | .xor => a ^^^ b
  (r, flagsOf r (op == .and) (parity r) false false)

/-- `add16(a, b, Fold)` (R138): S, Z, PV and bits 5 and 3 stay. -/
def add16 (a b : Word) (fold : Byte) : Word × Byte :=
  let sum := a.toNat + b.toNat
  let half := a.toNat % 4096 + b.toNat % 4096
  (BitVec.ofNat 16 sum,
    packFlags (flagS fold) (flagZ fold) (flag5 fold) (decide (half > 4095)) (flag3 fold) (flagPV fold)
      false (decide (sum > 65535)))

/-- The flags of a 16-bit sum or difference: S, bits 5 and 3 from the high byte, Z from all 16 bits (R139, R140). -/
def flagsOf16 (r : Word) (h pv n c : Bool) : Byte :=
  packFlags (r.getLsbD 15) (r == 0) (r.getLsbD 13) h (r.getLsbD 11) pv n c

/-- `adc16(a, b, cin)` (R139). -/
def adc16 (a b : Word) (cin : Bool) : Word × Byte :=
  let sum := a.toNat + b.toNat + cin.toNat
  let r := BitVec.ofNat 16 sum
  let half := a.toNat % 4096 + b.toNat % 4096 + cin.toNat
  let overflow := a.getLsbD 15 == b.getLsbD 15 && r.getLsbD 15 != a.getLsbD 15
  (r, flagsOf16 r (decide (half > 4095)) overflow false (decide (sum > 65535)))

/-- `sbc16(a, b, cin)` (R140). -/
def sbc16 (a b : Word) (cin : Bool) : Word × Byte :=
  let diff : Int := (a.toNat : Int) - b.toNat - cin.toNat
  let r := BitVec.ofInt 16 diff
  let half : Int := (a.toNat % 4096 : Nat) - (b.toNat % 4096 : Nat) - cin.toNat
  let overflow := a.getLsbD 15 != b.getLsbD 15 && r.getLsbD 15 != a.getLsbD 15
  (r, flagsOf16 r (decide (half < 0)) overflow true (decide (diff < 0)))

/-- `rotA_flags(cout, Fold)` (R141). -/
def rotAFlags (cout : Bool) (fold : Byte) : Byte :=
  packFlags (flagS fold) (flagZ fold) (flag5 fold) false (flag3 fold) (flagPV fold) false cout

/-- `rot_flags(r, cout)` (R142). -/
def rotFlags (r : Byte) (cout : Bool) : Byte := flagsOf r false (parity r) false cout

/-- `bit_flags(b, x, Fold)` (R143). -/
def bitFlags (b : Fin 8) (x fold : Byte) : Byte :=
  let t := x.getLsbD b.val
  packFlags (b == 7 && t) (!t) (x.getLsbD 5) true (x.getLsbD 3) (!t) false (flagC fold)

/-- `ldblock_flags(BCafter, Fold)` (R144). -/
def ldblockFlags (bcAfter : Word) (fold : Byte) : Byte :=
  packFlags (flagS fold) (flagZ fold) (flag5 fold) false (flag3 fold) (bcAfter != 0) false (flagC fold)

/-- `cpblock_flags(A, m, BCafter, Fold)` (R145). -/
def cpblockFlags (a m : Byte) (bcAfter : Word) (fold : Byte) : Byte :=
  let g := (sub8 a m false).2
  packFlags (flagS g) (flagZ g) (flag5 g) (flagH g) (flag3 g) (bcAfter != 0) true (flagC fold)

/-- The flags after CPL (R242), from the new accumulator. -/
def cplFlags (a fold : Byte) : Byte :=
  packFlags (flagS fold) (flagZ fold) (a.getLsbD 5) true (a.getLsbD 3) (flagPV fold) true (flagC fold)

/-- The eight rotates and shifts (R314). -/
inductive ShiftOp where
  | rlc
  | rrc
  | rl
  | rr
  | sla
  | sra
  | sll
  | srl
  deriving DecidableEq, Repr

/-- A byte moved left by one, `bit` entering at bit 0. -/
def shiftLeft (v : Byte) (bit : Bool) : Byte := BitVec.ofNat 8 (2 * v.toNat + bit.toNat)

/-- A byte moved right by one, `bit` entering at bit 7. -/
def shiftRight (v : Byte) (bit : Bool) : Byte := BitVec.ofNat 8 (128 * bit.toNat + v.toNat / 2)

/-- `shift(op, v, cin)` (R314): the new byte and the bit shifted out. -/
def shift (op : ShiftOp) (v : Byte) (cin : Bool) : Byte × Bool :=
  match op with
  | .rlc => (shiftLeft v (v.getLsbD 7), v.getLsbD 7)
  | .rrc => (shiftRight v (v.getLsbD 0), v.getLsbD 0)
  | .rl => (shiftLeft v cin, v.getLsbD 7)
  | .rr => (shiftRight v cin, v.getLsbD 0)
  | .sla => (shiftLeft v false, v.getLsbD 7)
  | .sra => (shiftRight v (v.getLsbD 7), v.getLsbD 0)
  | .sll => (shiftLeft v true, v.getLsbD 7)
  | .srl => (shiftRight v false, v.getLsbD 0)

/-! Operations that install a result and its flags. -/

/-- An accumulator operation (R220 to R223, R239 to R241): `(r, f) = g(A, Read_s, F.C); A <- r; WriteF(f)`. -/
def accOp (g : Byte → Byte → Bool → Byte × Byte) (x : Src) (len : Nat) (s : State) : Out :=
  let (v, s) := readSrc x s
  let (r, f) := g s.a v (carry s)
  finish len (writeF f { s with a := r })

/-- Compare (R224): the flags of the subtraction; A is not written. -/
def compareOp (x : Src) (len : Nat) (s : State) : Out :=
  let (v, s) := readSrc x s
  finish len (writeF (sub8 s.a v false).2 s)

/-- An operation on a register that sets flags: `(r, f) = g(r8[code]); r8[code] <- r; WriteF(f)` (R168). -/
def modifyReg (reg : Reg8) (g : Byte → Byte × Byte) (len : Nat) (s : State) : Out :=
  let (r, f) := g (getR8 reg s)
  finish len (writeF f (setR8 reg r s))

/-- A read-modify-write of a memory location that sets flags (R168): one read, one write of the same
address, then WriteF. -/
def modifyMem (x : Loc) (g : Byte → Byte × Byte) (len : Nat) (s : State) : Out :=
  let addr := locAddr x s
  let (v, s) := memRead addr s
  let (r, f) := g v
  andThen (memWrite addr r s) fun s => finish len (writeF f s)

/-- A read-modify-write of a memory location that sets no flag (SET, RES; R168, R146). -/
def modifyMemPlain (x : Loc) (g : Byte → Byte) (len : Nat) (s : State) : Out :=
  let addr := locAddr x s
  let (v, s) := memRead addr s
  andThen (memWrite addr (g v) s) fun s => finish len s

end Sys2Proof.Machine
end

