-- ==== Sys2Proof/Machine/Arith.lean ====
section
/-! DEFINITION. The arithmetic, compare and logic instructions (spec/43_arithmetic_logic.md R220 to R242). -/

namespace Sys2Proof.Machine

/-- ADD A,r (R220). -/
def execAddAR (r : Reg8) (s : State) : Out :=
  accOp (fun a v _ => add8 a v false) (.reg r) 1 s

/-- ADD A,n (R220). -/
def execAddAN (n : Byte) (s : State) : Out :=
  accOp (fun a v _ => add8 a v false) (.imm n) 2 s

/-- ADD A,(HL) (R220). -/
def execAddAMHl (s : State) : Out :=
  accOp (fun a v _ => add8 a v false) .atHl 1 s

/-- ADD A,(IX+d) and ADD A,(IY+d) (R220). -/
def execAddAMIdx (i : Idx) (d : Byte) (s : State) : Out :=
  accOp (fun a v _ => add8 a v false) (.atIdx i d) 3 s

/-- ADC A,r (R221). -/
def execAdcAR (r : Reg8) (s : State) : Out :=
  accOp add8 (.reg r) 1 s

/-- ADC A,n (R221). -/
def execAdcAN (n : Byte) (s : State) : Out :=
  accOp add8 (.imm n) 2 s

/-- ADC A,(HL) (R221). -/
def execAdcAMHl (s : State) : Out :=
  accOp add8 .atHl 1 s

/-- ADC A,(IX+d) and ADC A,(IY+d) (R221). -/
def execAdcAMIdx (i : Idx) (d : Byte) (s : State) : Out :=
  accOp add8 (.atIdx i d) 3 s

/-- SUB r (R222). -/
def execSubR (r : Reg8) (s : State) : Out :=
  accOp (fun a v _ => sub8 a v false) (.reg r) 1 s

/-- SUB n (R222). -/
def execSubN (n : Byte) (s : State) : Out :=
  accOp (fun a v _ => sub8 a v false) (.imm n) 2 s

/-- SUB (HL) (R222). -/
def execSubMHl (s : State) : Out :=
  accOp (fun a v _ => sub8 a v false) .atHl 1 s

/-- SUB (IX+d) and SUB (IY+d) (R222). -/
def execSubMIdx (i : Idx) (d : Byte) (s : State) : Out :=
  accOp (fun a v _ => sub8 a v false) (.atIdx i d) 3 s

/-- SBC A,r (R223). -/
def execSbcAR (r : Reg8) (s : State) : Out :=
  accOp sub8 (.reg r) 1 s

/-- SBC A,n (R223). -/
def execSbcAN (n : Byte) (s : State) : Out :=
  accOp sub8 (.imm n) 2 s

/-- SBC A,(HL) (R223). -/
def execSbcAMHl (s : State) : Out :=
  accOp sub8 .atHl 1 s

/-- SBC A,(IX+d) and SBC A,(IY+d) (R223). -/
def execSbcAMIdx (i : Idx) (d : Byte) (s : State) : Out :=
  accOp sub8 (.atIdx i d) 3 s

/-- AND r (R239). -/
def execAndR (r : Reg8) (s : State) : Out :=
  accOp (fun a v _ => logic8 .and a v) (.reg r) 1 s

/-- AND n (R239). -/
def execAndN (n : Byte) (s : State) : Out :=
  accOp (fun a v _ => logic8 .and a v) (.imm n) 2 s

/-- AND (HL) (R239). -/
def execAndMHl (s : State) : Out :=
  accOp (fun a v _ => logic8 .and a v) .atHl 1 s

/-- AND (IX+d) and AND (IY+d) (R239). -/
def execAndMIdx (i : Idx) (d : Byte) (s : State) : Out :=
  accOp (fun a v _ => logic8 .and a v) (.atIdx i d) 3 s

/-- XOR r (R241). -/
def execXorR (r : Reg8) (s : State) : Out :=
  accOp (fun a v _ => logic8 .xor a v) (.reg r) 1 s

/-- XOR n (R241). -/
def execXorN (n : Byte) (s : State) : Out :=
  accOp (fun a v _ => logic8 .xor a v) (.imm n) 2 s

/-- XOR (HL) (R241). -/
def execXorMHl (s : State) : Out :=
  accOp (fun a v _ => logic8 .xor a v) .atHl 1 s

/-- XOR (IX+d) and XOR (IY+d) (R241). -/
def execXorMIdx (i : Idx) (d : Byte) (s : State) : Out :=
  accOp (fun a v _ => logic8 .xor a v) (.atIdx i d) 3 s

/-- OR r (R240). -/
def execOrR (r : Reg8) (s : State) : Out :=
  accOp (fun a v _ => logic8 .or a v) (.reg r) 1 s

/-- OR n (R240). -/
def execOrN (n : Byte) (s : State) : Out :=
  accOp (fun a v _ => logic8 .or a v) (.imm n) 2 s

/-- OR (HL) (R240). -/
def execOrMHl (s : State) : Out :=
  accOp (fun a v _ => logic8 .or a v) .atHl 1 s

/-- OR (IX+d) and OR (IY+d) (R240). -/
def execOrMIdx (i : Idx) (d : Byte) (s : State) : Out :=
  accOp (fun a v _ => logic8 .or a v) (.atIdx i d) 3 s

/-- CP r (R224). -/
def execCpR (r : Reg8) (s : State) : Out :=
  compareOp (.reg r) 1 s

/-- CP n (R224). -/
def execCpN (n : Byte) (s : State) : Out :=
  compareOp (.imm n) 2 s

/-- CP (HL) (R224). -/
def execCpMHl (s : State) : Out :=
  compareOp .atHl 1 s

/-- CP (IX+d) and CP (IY+d) (R224). -/
def execCpMIdx (i : Idx) (d : Byte) (s : State) : Out :=
  compareOp (.atIdx i d) 3 s

/-- INC r (R225). -/
def execIncR (r : Reg8) (s : State) : Out :=
  modifyReg r (fun v => inc8 v s.f) 1 s

/-- INC (HL) (R226). -/
def execIncMHl (s : State) : Out :=
  modifyMem .atHl (fun v => inc8 v s.f) 1 s

/-- INC (IX+d) and INC (IY+d) (R227). -/
def execIncMIdx (i : Idx) (d : Byte) (s : State) : Out :=
  modifyMem (.atIdx i d) (fun v => inc8 v s.f) 3 s

/-- DEC r (R228). -/
def execDecR (r : Reg8) (s : State) : Out :=
  modifyReg r (fun v => dec8 v s.f) 1 s

/-- DEC (HL) (R229). -/
def execDecMHl (s : State) : Out :=
  modifyMem .atHl (fun v => dec8 v s.f) 1 s

/-- DEC (IX+d) and DEC (IY+d) (R230). -/
def execDecMIdx (i : Idx) (d : Byte) (s : State) : Out :=
  modifyMem (.atIdx i d) (fun v => dec8 v s.f) 3 s

/-- ADD HL,ss (R231). -/
def execAddHlSs (p : Pair) (s : State) : Out :=
  let (r, f) := add16 (getHl s) (getPair p s) s.f
  finish 1 (writeF f (setHl r s))

/-- ADD IX,pp and ADD IY,pp (R232). -/
def execAddIdxPp (i : Idx) (p : PairX) (s : State) : Out :=
  let (r, f) := add16 (getIdx i s) (getPairX i p s) s.f
  finish 2 (writeF f (setIdx i r s))

/-- ADC HL,ss (R233). -/
def execAdcHlSs (p : Pair) (s : State) : Out :=
  let (r, f) := adc16 (getHl s) (getPair p s) (carry s)
  finish 2 (writeF f (setHl r s))

/-- SBC HL,ss (R234). -/
def execSbcHlSs (p : Pair) (s : State) : Out :=
  let (r, f) := sbc16 (getHl s) (getPair p s) (carry s)
  finish 2 (writeF f (setHl r s))

/-- INC ss (R235): no flag changes. -/
def execIncSs (p : Pair) (s : State) : Out :=
  finish 1 (setPair p (getPair p s + 1) s)

/-- DEC ss (R236): no flag changes. -/
def execDecSs (p : Pair) (s : State) : Out :=
  finish 1 (setPair p (getPair p s - 1) s)

/-- INC IX and INC IY (R237). -/
def execIncIdx (i : Idx) (s : State) : Out :=
  finish 2 (setIdx i (getIdx i s + 1) s)

/-- DEC IX and DEC IY (R238). -/
def execDecIdx (i : Idx) (s : State) : Out :=
  finish 2 (setIdx i (getIdx i s - 1) s)

/-- CPL (R242): the flag bits 5 and 3 come from the new accumulator. -/
def execCpl (s : State) : Out :=
  let a := s.a ^^^ 0xFF
  finish 1 (writeF (cplFlags a s.f) { s with a := a })

end Sys2Proof.Machine
end

