-- ==== Sys2Proof/Machine/Bit.lean ====
section
/-! DEFINITION. The bit test, set and reset instructions (spec/47_bit.md R330 to R338). -/

namespace Sys2Proof.Machine

/-- The byte whose only set bit is bit `b`: `1 << b`. -/
def bitMask (b : Fin 8) : Byte := BitVec.twoPow 8 b.val

/-- `v | (1 << b)` (R333). -/
def setBit (b : Fin 8) (v : Byte) : Byte := v ||| bitMask b

/-- `v & ~(1 << b) & 0xFF` (R336). -/
def resetBit (b : Fin 8) (v : Byte) : Byte := v &&& ~~~bitMask b

/-- BIT b of the byte at an address (R331, R332): one read, no write. -/
def bitTestMem (b : Fin 8) (x : Loc) (len : Nat) (s : State) : Out :=
  let (v, s) := memRead (locAddr x s) s
  finish len (writeF (bitFlags b v s.f) s)

/-- BIT b,r (R330). -/
def execBitBR (b : Fin 8) (r : Reg8) (s : State) : Out :=
  finish 2 (writeF (bitFlags b (getR8 r s) s.f) s)

/-- BIT b,(HL) (R331). -/
def execBitBMHl (b : Fin 8) (s : State) : Out :=
  bitTestMem b .atHl 2 s

/-- BIT b,(IX+d) and BIT b,(IY+d) (R332). -/
def execBitBMIdx (b : Fin 8) (i : Idx) (d : Byte) (s : State) : Out :=
  bitTestMem b (.atIdx i d) 4 s

/-- SET b,r (R333): no flag changes. -/
def execSetBR (b : Fin 8) (r : Reg8) (s : State) : Out :=
  finish 2 (setR8 r (setBit b (getR8 r s)) s)

/-- SET b,(HL) (R334). -/
def execSetBMHl (b : Fin 8) (s : State) : Out :=
  modifyMemPlain .atHl (setBit b) 2 s

/-- SET b,(IX+d) and SET b,(IY+d) (R335). -/
def execSetBMIdx (b : Fin 8) (i : Idx) (d : Byte) (s : State) : Out :=
  modifyMemPlain (.atIdx i d) (setBit b) 4 s

/-- RES b,r (R336): no flag changes. -/
def execResBR (b : Fin 8) (r : Reg8) (s : State) : Out :=
  finish 2 (setR8 r (resetBit b (getR8 r s)) s)

/-- RES b,(HL) (R337). -/
def execResBMHl (b : Fin 8) (s : State) : Out :=
  modifyMemPlain .atHl (resetBit b) 2 s

/-- RES b,(IX+d) and RES b,(IY+d) (R338). -/
def execResBMIdx (b : Fin 8) (i : Idx) (d : Byte) (s : State) : Out :=
  modifyMemPlain (.atIdx i d) (resetBit b) 4 s

end Sys2Proof.Machine
end

