-- ==== Sys2Proof/Machine/Block.lean ====
section
/-! DEFINITION. The block transfer and compare instructions (spec/48_block.md R350 to R358). `step` is 1 for the
incrementing forms and 0xFFFF, which is -1 mod 65536, for the decrementing ones. -/

namespace Sys2Proof.Machine

/-- One iteration of a block transfer (R350): the write to DE comes before every register update. -/
def transferOnce (step : Word) (s : State) : Out :=
  let (v, s) := memRead (getHl s) s
  andThen (memWrite (getDe s) v s) fun s =>
  .next (setBc (getBc s - 1) (setDe (getDe s + step) (setHl (getHl s + step) s)))

/-- The do-while loop of LDIR and LDDR (R352, R358): at most `more` further iterations after the first;
65535 are always enough, because BC counts down to 0. -/
def transferLoop (step : Word) : Nat → State → Out
  | 0, s => transferOnce step s
  | more + 1, s =>
    andThen (transferOnce step s) fun s => if getBc s = 0 then .next s else transferLoop step more s

/-- The end of a transfer group: the flags from the final BC and the flag byte before the instruction. -/
def finishTransfer (fold : Byte) (s : State) : Out :=
  finish 2 (writeF (ldblockFlags (getBc s) fold) s)

/-- One iteration of a block compare (R354): the byte compared, and the state after it. -/
def compareOnce (step : Word) (s : State) : Byte × State :=
  let (m, s) := memRead (getHl s) s
  (m, setBc (getBc s - 1) (setHl (getHl s + step) s))

/-- The do-while loop of CPIR and CPDR (R356, R358): the byte of the last comparison, and the state. -/
def compareLoop (step : Word) : Nat → State → Byte × State
  | 0, s => compareOnce step s
  | more + 1, s =>
    let (m, s) := compareOnce step s
    if getBc s = 0 ∨ s.a = m then (m, s) else compareLoop step more s

/-- The end of a compare group: the flags from the last comparison, the final BC and the old flag byte (R145). -/
def finishCompare (r : Byte × State) (fold : Byte) : Out :=
  finish 2 (writeF (cpblockFlags r.2.a r.1 (getBc r.2) fold) r.2)

/-- LDI (R350). -/
def execLdi (s : State) : Out :=
  andThen (transferOnce 1 s) (finishTransfer s.f)

/-- LDD (R351). -/
def execLdd (s : State) : Out :=
  andThen (transferOnce 0xFFFF s) (finishTransfer s.f)

/-- LDIR (R352). -/
def execLdir (s : State) : Out :=
  andThen (transferLoop 1 65535 s) (finishTransfer s.f)

/-- LDDR (R353). -/
def execLddr (s : State) : Out :=
  andThen (transferLoop 0xFFFF 65535 s) (finishTransfer s.f)

/-- CPI (R354). -/
def execCpi (s : State) : Out :=
  finishCompare (compareOnce 1 s) s.f

/-- CPD (R355). -/
def execCpd (s : State) : Out :=
  finishCompare (compareOnce 0xFFFF s) s.f

/-- CPIR (R356). -/
def execCpir (s : State) : Out :=
  finishCompare (compareLoop 1 65535 s) s.f

/-- CPDR (R357). -/
def execCpdr (s : State) : Out :=
  finishCompare (compareLoop 0xFFFF 65535 s) s.f

end Sys2Proof.Machine
end

