-- ==== Sys2Proof/Machine/Control.lean ====
section
/-! DEFINITION. The control-transfer instructions (spec/44_control_transfer.md R271 to R282). None changes a flag. -/

namespace Sys2Proof.Machine

/-- `Push16(next); pc <- target` (R278). -/
def callTo (len : Nat) (target : Word) (s : State) : Out :=
  andThen (push16 (nextPc len s) s) fun s => .next (setPc target s)

/-- `pc <- Pop16()` (R280). -/
def returnFrom (s : State) : Out :=
  let (v, s) := pop16 s
  .next (setPc v s)

/-- JP nn (R271). -/
def execJpNn (nn : Word) (s : State) : Out :=
  .next (setPc nn s)

/-- JP cc,nn (R272). -/
def execJpCcNn (cc : Cond) (nn : Word) (s : State) : Out :=
  if condHolds cc s then .next (setPc nn s) else finish 3 s

/-- JP (HL) (R273): the target is the register value; no memory is read. -/
def execJpHl (s : State) : Out :=
  .next (setPc (getHl s) s)

/-- JP (IX) and JP (IY) (R274). -/
def execJpIdx (i : Idx) (s : State) : Out :=
  .next (setPc (getIdx i s) s)

/-- JR e (R275). -/
def execJrE (e : Byte) (s : State) : Out :=
  .next (setPc (eaRel e s) s)

/-- JR cc,e (R276). -/
def execJrCcE (cc : Cond) (e : Byte) (s : State) : Out :=
  if condHolds cc s then .next (setPc (eaRel e s) s) else finish 2 s

/-- DJNZ e (R277): B is decremented whether or not the branch is taken; no flag changes. -/
def execDjnzE (e : Byte) (s : State) : Out :=
  let s := { s with b := s.b - 1 }
  if s.b ≠ 0 then .next (setPc (eaRel e s) s) else finish 2 s

/-- CALL nn (R278). -/
def execCallNn (nn : Word) (s : State) : Out :=
  callTo 3 nn s

/-- CALL cc,nn (R279). -/
def execCallCcNn (cc : Cond) (nn : Word) (s : State) : Out :=
  if condHolds cc s then callTo 3 nn s else finish 3 s

/-- RET (R280). -/
def execRet (s : State) : Out :=
  returnFrom s

/-- RET cc (R281). -/
def execRetCc (cc : Cond) (s : State) : Out :=
  if condHolds cc s then returnFrom s else finish 1 s

/-- RST p (R282): the vector is 8 * t. -/
def execRstP (t : Fin 8) (s : State) : Out :=
  callTo 1 (BitVec.ofNat 16 (8 * t.val)) s

end Sys2Proof.Machine
end

