-- ==== Sys2Proof/Machine/Io.lean ====
section
/-! DEFINITION. Input/output, interrupt control and NOP (spec/49_io_interrupt_nop.md R370 to R375). -/

namespace Sys2Proof.Machine

/-- IN A,(n) (R370): exactly one read of port n; no flag changes. -/
def execInAMN (n : Byte) (s : State) : Out :=
  let (v, s) := ioRead n s
  finish 2 { s with a := v }

/-- OUT (n),A (R371): exactly one write of port n. -/
def execOutMNA (n : Byte) (s : State) : Out :=
  andThen (ioWrite n s.a s) fun s => finish 2 s

/-- DI (R372). -/
def execDi (s : State) : Out :=
  finish 1 { s with iff := false }

/-- EI (R373): IFF is set within the step. -/
def execEi (s : State) : Out :=
  finish 1 { s with iff := true }

/-- IM 0 (R374). -/
def execIm0 (s : State) : Out :=
  finish 2 { s with im := .mode0 }

/-- IM 1 (R374). -/
def execIm1 (s : State) : Out :=
  finish 2 { s with im := .mode1 }

/-- IM 2 (R374). -/
def execIm2 (s : State) : Out :=
  finish 2 { s with im := .mode2 }

/-- NOP (R375). -/
def execNop (s : State) : Out :=
  finish 1 s

end Sys2Proof.Machine
end

