-- ==== Sys2Proof/Machine/Load.lean ====
section
/-! DEFINITION. The load instructions (spec/42_load.md R180 to R203). No load writes F (R146). -/

namespace Sys2Proof.Machine

/-- `r8[dst] <- MemRead(addr, 1)`. -/
def loadR8 (dst : Reg8) (addr : Word) (len : Nat) (s : State) : Out :=
  let (v, s) := memRead addr s
  finish len (setR8 dst v s)

/-- `MemWrite(addr, 1, v)`. -/
def storeByte (addr : Word) (v : Byte) (len : Nat) (s : State) : Out :=
  andThen (memWrite addr v s) fun s => finish len s

/-- `MemWrite(addr, 2, v)`. -/
def storeWord (addr v : Word) (len : Nat) (s : State) : Out :=
  andThen (memWrite2 addr v s) fun s => finish len s

/-- LD r,r' (R180). -/
def execLdRR (dst src : Reg8) (s : State) : Out :=
  finish 1 (setR8 dst (getR8 src s) s)

/-- LD r,n (R181). -/
def execLdRN (dst : Reg8) (n : Byte) (s : State) : Out :=
  finish 2 (setR8 dst n s)

/-- LD r,(HL) (R182): the address is formed before the register is written. -/
def execLdRMHl (dst : Reg8) (s : State) : Out :=
  loadR8 dst (getHl s) 1 s

/-- LD (HL),r (R183). -/
def execLdMHlR (r : Reg8) (s : State) : Out :=
  storeByte (getHl s) (getR8 r s) 1 s

/-- LD (HL),n (R184). -/
def execLdMHlN (n : Byte) (s : State) : Out :=
  storeByte (getHl s) n 2 s

/-- LD r,(IX+d) and LD r,(IY+d) (R185). -/
def execLdRMIdx (i : Idx) (t : Reg8) (d : Byte) (s : State) : Out :=
  loadR8 t (eaIdx i d s) 3 s

/-- LD (IX+d),r and LD (IY+d),r (R186). -/
def execLdMIdxR (i : Idx) (d : Byte) (r : Reg8) (s : State) : Out :=
  storeByte (eaIdx i d s) (getR8 r s) 3 s

/-- LD (IX+d),n and LD (IY+d),n (R187). -/
def execLdMIdxN (i : Idx) (d n : Byte) (s : State) : Out :=
  storeByte (eaIdx i d s) n 4 s

/-- LD A,(BC) (R188). -/
def execLdAMBc (s : State) : Out :=
  loadR8 .a (getBc s) 1 s

/-- LD A,(DE) (R189). -/
def execLdAMDe (s : State) : Out :=
  loadR8 .a (getDe s) 1 s

/-- LD (BC),A (R190). -/
def execLdMBcA (s : State) : Out :=
  storeByte (getBc s) s.a 1 s

/-- LD (DE),A (R191). -/
def execLdMDeA (s : State) : Out :=
  storeByte (getDe s) s.a 1 s

/-- LD A,(nn) (R192). -/
def execLdAMNn (nn : Word) (s : State) : Out :=
  loadR8 .a nn 3 s

/-- LD (nn),A (R193). -/
def execLdMNnA (nn : Word) (s : State) : Out :=
  storeByte nn s.a 3 s

/-- LD dd,nn (R194). -/
def execLdDdNn (p : Pair) (nn : Word) (s : State) : Out :=
  finish 3 (setPair p nn s)

/-- LD IX,nn and LD IY,nn (R195). -/
def execLdIdxNn (i : Idx) (nn : Word) (s : State) : Out :=
  finish 4 (setIdx i nn s)

/-- LD HL,(nn) (R196). -/
def execLdHlMNn (nn : Word) (s : State) : Out :=
  let (v, s) := memRead2 nn s
  finish 3 (setHl v s)

/-- LD (nn),HL (R197). -/
def execLdMNnHl (nn : Word) (s : State) : Out :=
  storeWord nn (getHl s) 3 s

/-- LD dd,(nn) (R198). -/
def execLdDdMNn (p : Pair) (nn : Word) (s : State) : Out :=
  let (v, s) := memRead2 nn s
  finish 4 (setPair p v s)

/-- LD (nn),dd (R199). -/
def execLdMNnDd (nn : Word) (p : Pair) (s : State) : Out :=
  storeWord nn (getPair p s) 4 s

/-- LD IX,(nn) and LD IY,(nn) (R200). -/
def execLdIdxMNn (i : Idx) (nn : Word) (s : State) : Out :=
  let (v, s) := memRead2 nn s
  finish 4 (setIdx i v s)

/-- LD (nn),IX and LD (nn),IY (R201). -/
def execLdMNnIdx (nn : Word) (i : Idx) (s : State) : Out :=
  storeWord nn (getIdx i s) 4 s

/-- LD SP,HL (R202). -/
def execLdSpHl (s : State) : Out :=
  finish 1 (setSp (getHl s) s)

/-- LD SP,IX and LD SP,IY (R203). -/
def execLdSpIdx (i : Idx) (s : State) : Out :=
  finish 2 (setSp (getIdx i s) s)

end Sys2Proof.Machine
end

