-- ==== Sys2Proof/Machine/Rotate.lean ====
section
/-! DEFINITION. The rotate and shift instructions (spec/46_rotate_shift.md R310 to R322). -/

namespace Sys2Proof.Machine

/-- An accumulator form (R310 to R313): A takes the shifted byte, F only the flags of R141. -/
def rotateA (op : ShiftOp) (s : State) : Out :=
  let (r, cout) := shift op s.a (carry s)
  finish 1 (writeF (rotAFlags cout s.f) { s with a := r })

/-- The new byte and the flags of a register-or-memory form (R314, R142). -/
def shiftFlags (op : ShiftOp) (cin : Bool) (v : Byte) : Byte × Byte :=
  let (r, cout) := shift op v cin
  (r, rotFlags r cout)

/-- RLCA (R310). -/
def execRlca (s : State) : Out :=
  rotateA .rlc s

/-- RRCA (R311). -/
def execRrca (s : State) : Out :=
  rotateA .rrc s

/-- RLA (R312). -/
def execRla (s : State) : Out :=
  rotateA .rl s

/-- RRA (R313). -/
def execRra (s : State) : Out :=
  rotateA .rr s

/-- RLC r (R315). -/
def execRlcR (r : Reg8) (s : State) : Out :=
  modifyReg r (shiftFlags .rlc (carry s)) 2 s

/-- RLC (HL) (R315). -/
def execRlcMHl (s : State) : Out :=
  modifyMem .atHl (shiftFlags .rlc (carry s)) 2 s

/-- RLC (IX+d) and RLC (IY+d) (R315). -/
def execRlcMIdx (i : Idx) (d : Byte) (s : State) : Out :=
  modifyMem (.atIdx i d) (shiftFlags .rlc (carry s)) 4 s

/-- RRC r (R316). -/
def execRrcR (r : Reg8) (s : State) : Out :=
  modifyReg r (shiftFlags .rrc (carry s)) 2 s

/-- RRC (HL) (R316). -/
def execRrcMHl (s : State) : Out :=
  modifyMem .atHl (shiftFlags .rrc (carry s)) 2 s

/-- RRC (IX+d) and RRC (IY+d) (R316). -/
def execRrcMIdx (i : Idx) (d : Byte) (s : State) : Out :=
  modifyMem (.atIdx i d) (shiftFlags .rrc (carry s)) 4 s

/-- RL r (R317). -/
def execRlR (r : Reg8) (s : State) : Out :=
  modifyReg r (shiftFlags .rl (carry s)) 2 s

/-- RL (HL) (R317). -/
def execRlMHl (s : State) : Out :=
  modifyMem .atHl (shiftFlags .rl (carry s)) 2 s

/-- RL (IX+d) and RL (IY+d) (R317). -/
def execRlMIdx (i : Idx) (d : Byte) (s : State) : Out :=
  modifyMem (.atIdx i d) (shiftFlags .rl (carry s)) 4 s

/-- RR r (R318). -/
def execRrR (r : Reg8) (s : State) : Out :=
  modifyReg r (shiftFlags .rr (carry s)) 2 s

/-- RR (HL) (R318). -/
def execRrMHl (s : State) : Out :=
  modifyMem .atHl (shiftFlags .rr (carry s)) 2 s

/-- RR (IX+d) and RR (IY+d) (R318). -/
def execRrMIdx (i : Idx) (d : Byte) (s : State) : Out :=
  modifyMem (.atIdx i d) (shiftFlags .rr (carry s)) 4 s

/-- SLA r (R319). -/
def execSlaR (r : Reg8) (s : State) : Out :=
  modifyReg r (shiftFlags .sla (carry s)) 2 s

/-- SLA (HL) (R319). -/
def execSlaMHl (s : State) : Out :=
  modifyMem .atHl (shiftFlags .sla (carry s)) 2 s

/-- SLA (IX+d) and SLA (IY+d) (R319). -/
def execSlaMIdx (i : Idx) (d : Byte) (s : State) : Out :=
  modifyMem (.atIdx i d) (shiftFlags .sla (carry s)) 4 s

/-- SRA r (R320). -/
def execSraR (r : Reg8) (s : State) : Out :=
  modifyReg r (shiftFlags .sra (carry s)) 2 s

/-- SRA (HL) (R320). -/
def execSraMHl (s : State) : Out :=
  modifyMem .atHl (shiftFlags .sra (carry s)) 2 s

/-- SRA (IX+d) and SRA (IY+d) (R320). -/
def execSraMIdx (i : Idx) (d : Byte) (s : State) : Out :=
  modifyMem (.atIdx i d) (shiftFlags .sra (carry s)) 4 s

/-- SLL r (R321). -/
def execSllR (r : Reg8) (s : State) : Out :=
  modifyReg r (shiftFlags .sll (carry s)) 2 s

/-- SLL (HL) (R321). -/
def execSllMHl (s : State) : Out :=
  modifyMem .atHl (shiftFlags .sll (carry s)) 2 s

/-- SLL (IX+d) and SLL (IY+d) (R321). -/
def execSllMIdx (i : Idx) (d : Byte) (s : State) : Out :=
  modifyMem (.atIdx i d) (shiftFlags .sll (carry s)) 4 s

/-- SRL r (R322). -/
def execSrlR (r : Reg8) (s : State) : Out :=
  modifyReg r (shiftFlags .srl (carry s)) 2 s

/-- SRL (HL) (R322). -/
def execSrlMHl (s : State) : Out :=
  modifyMem .atHl (shiftFlags .srl (carry s)) 2 s

/-- SRL (IX+d) and SRL (IY+d) (R322). -/
def execSrlMIdx (i : Idx) (d : Byte) (s : State) : Out :=
  modifyMem (.atIdx i d) (shiftFlags .srl (carry s)) 4 s

end Sys2Proof.Machine
end

