-- ==== Sys2Proof/Machine/Stack.lean ====
section
/-! DEFINITION. The stack and exchange instructions (spec/45_stack_exchange.md R292 to R300). -/

namespace Sys2Proof.Machine

/-- Swap a word with the word at SP (R299): both reads, then both writes, then the register. -/
def exchangeSp (v : Word) (set : Word → State → State) (len : Nat) (s : State) : Out :=
  let (w, s) := memRead2 s.sp s
  andThen (memWrite2 s.sp v s) fun s => finish len (set w s)

/-- PUSH qq (R292). -/
def execPushQq (p : Pair2) (s : State) : Out :=
  andThen (push16 (getPair2 p s) s) fun s => finish 1 s

/-- POP qq (R293): POP AF loads all eight bits of F. -/
def execPopQq (p : Pair2) (s : State) : Out :=
  let (v, s) := pop16 s
  finish 1 (setPair2 p v s)

/-- PUSH IX and PUSH IY (R294). -/
def execPushIdx (i : Idx) (s : State) : Out :=
  andThen (push16 (getIdx i s) s) fun s => finish 2 s

/-- POP IX and POP IY (R295). -/
def execPopIdx (i : Idx) (s : State) : Out :=
  let (v, s) := pop16 s
  finish 2 (setIdx i v s)

/-- EX DE,HL (R296). -/
def execExDeHl (s : State) : Out :=
  finish 1 { s with d := s.h, e := s.l, h := s.d, l := s.e }

/-- EX AF,AF' (R297): F is copied whole, not through WriteF. -/
def execExAfAf (s : State) : Out :=
  finish 1 { s with a := s.a', f := s.f', a' := s.a, f' := s.f }

/-- EXX (R298). -/
def execExx (s : State) : Out :=
  finish 1
    { s with
      b := s.b', c := s.c', d := s.d', e := s.e', h := s.h', l := s.l'
      b' := s.b, c' := s.c, d' := s.d, e' := s.e, h' := s.h, l' := s.l }

/-- EX (SP),HL (R299). -/
def execExMSpHl (s : State) : Out :=
  exchangeSp (getHl s) setHl 1 s

/-- EX (SP),IX and EX (SP),IY (R300). -/
def execExMSpIdx (i : Idx) (s : State) : Out :=
  exchangeSp (getIdx i s) (setIdx i) 2 s

end Sys2Proof.Machine
end

