-- ==== Sys2Proof/Machine/Dispatch.lean ====
section
/-! DEFINITION. One arm per instruction: the meaning it has. -/

namespace Sys2Proof.Machine

def exec (i : Instr) (s : State) : Host.Outcome State Fault Refusal :=
  match i with
  | .ldRR dst src => Sys2Proof.Machine.execLdRR dst src s
  | .ldRN dst n => Sys2Proof.Machine.execLdRN dst n s
  | .ldRMHl dst => Sys2Proof.Machine.execLdRMHl dst s
  | .ldMHlR r => Sys2Proof.Machine.execLdMHlR r s
  | .ldMHlN n => Sys2Proof.Machine.execLdMHlN n s
  | .ldRMIdx x t d => Sys2Proof.Machine.execLdRMIdx x t d s
  | .ldMIdxR x d r => Sys2Proof.Machine.execLdMIdxR x d r s
  | .ldMIdxN x d n => Sys2Proof.Machine.execLdMIdxN x d n s
  | .ldAMBc => Sys2Proof.Machine.execLdAMBc s
  | .ldAMDe => Sys2Proof.Machine.execLdAMDe s
  | .ldMBcA => Sys2Proof.Machine.execLdMBcA s
  | .ldMDeA => Sys2Proof.Machine.execLdMDeA s
  | .ldAMNn nn => Sys2Proof.Machine.execLdAMNn nn s
  | .ldMNnA nn => Sys2Proof.Machine.execLdMNnA nn s
  | .ldDdNn p nn => Sys2Proof.Machine.execLdDdNn p nn s
  | .ldIdxNn x nn => Sys2Proof.Machine.execLdIdxNn x nn s
  | .ldHlMNn nn => Sys2Proof.Machine.execLdHlMNn nn s
  | .ldMNnHl nn => Sys2Proof.Machine.execLdMNnHl nn s
  | .ldDdMNn p nn => Sys2Proof.Machine.execLdDdMNn p nn s
  | .ldMNnDd nn p => Sys2Proof.Machine.execLdMNnDd nn p s
  | .ldIdxMNn x nn => Sys2Proof.Machine.execLdIdxMNn x nn s
  | .ldMNnIdx nn x => Sys2Proof.Machine.execLdMNnIdx nn x s
  | .ldSpHl => Sys2Proof.Machine.execLdSpHl s
  | .ldSpIdx x => Sys2Proof.Machine.execLdSpIdx x s
  | .addAR r => Sys2Proof.Machine.execAddAR r s
  | .addAN n => Sys2Proof.Machine.execAddAN n s
  | .addAMHl => Sys2Proof.Machine.execAddAMHl s
  | .addAMIdx x d => Sys2Proof.Machine.execAddAMIdx x d s
  | .adcAR r => Sys2Proof.Machine.execAdcAR r s
  | .adcAN n => Sys2Proof.Machine.execAdcAN n s
  | .adcAMHl => Sys2Proof.Machine.execAdcAMHl s
  | .adcAMIdx x d => Sys2Proof.Machine.execAdcAMIdx x d s
  | .subR r => Sys2Proof.Machine.execSubR r s
  | .subN n => Sys2Proof.Machine.execSubN n s
  | .subMHl => Sys2Proof.Machine.execSubMHl s
  | .subMIdx x d => Sys2Proof.Machine.execSubMIdx x d s
  | .sbcAR r => Sys2Proof.Machine.execSbcAR r s
  | .sbcAN n => Sys2Proof.Machine.execSbcAN n s
  | .sbcAMHl => Sys2Proof.Machine.execSbcAMHl s
  | .sbcAMIdx x d => Sys2Proof.Machine.execSbcAMIdx x d s
  | .andR r => Sys2Proof.Machine.execAndR r s
  | .andN n => Sys2Proof.Machine.execAndN n s
  | .andMHl => Sys2Proof.Machine.execAndMHl s
  | .andMIdx x d => Sys2Proof.Machine.execAndMIdx x d s
  | .xorR r => Sys2Proof.Machine.execXorR r s
  | .xorN n => Sys2Proof.Machine.execXorN n s
  | .xorMHl => Sys2Proof.Machine.execXorMHl s
  | .xorMIdx x d => Sys2Proof.Machine.execXorMIdx x d s
  | .orR r => Sys2Proof.Machine.execOrR r s
  | .orN n => Sys2Proof.Machine.execOrN n s
  | .orMHl => Sys2Proof.Machine.execOrMHl s
  | .orMIdx x d => Sys2Proof.Machine.execOrMIdx x d s
  | .cpR r => Sys2Proof.Machine.execCpR r s
  | .cpN n => Sys2Proof.Machine.execCpN n s
  | .cpMHl => Sys2Proof.Machine.execCpMHl s
  | .cpMIdx x d => Sys2Proof.Machine.execCpMIdx x d s
  | .incR r => Sys2Proof.Machine.execIncR r s
  | .incMHl => Sys2Proof.Machine.execIncMHl s
  | .incMIdx x d => Sys2Proof.Machine.execIncMIdx x d s
  | .decR r => Sys2Proof.Machine.execDecR r s
  | .decMHl => Sys2Proof.Machine.execDecMHl s
  | .decMIdx x d => Sys2Proof.Machine.execDecMIdx x d s
  | .addHlSs p => Sys2Proof.Machine.execAddHlSs p s
  | .addIdxPp x p => Sys2Proof.Machine.execAddIdxPp x p s
  | .adcHlSs p => Sys2Proof.Machine.execAdcHlSs p s
  | .sbcHlSs p => Sys2Proof.Machine.execSbcHlSs p s
  | .incSs p => Sys2Proof.Machine.execIncSs p s
  | .decSs p => Sys2Proof.Machine.execDecSs p s
  | .incIdx x => Sys2Proof.Machine.execIncIdx x s
  | .decIdx x => Sys2Proof.Machine.execDecIdx x s
  | .cpl => Sys2Proof.Machine.execCpl s
  | .jpNn nn => Sys2Proof.Machine.execJpNn nn s
  | .jpCcNn cc nn => Sys2Proof.Machine.execJpCcNn cc nn s
  | .jpHl => Sys2Proof.Machine.execJpHl s
  | .jpIdx x => Sys2Proof.Machine.execJpIdx x s
  | .jrE e => Sys2Proof.Machine.execJrE e s
  | .jrCcE cc e => Sys2Proof.Machine.execJrCcE cc e s
  | .djnzE e => Sys2Proof.Machine.execDjnzE e s
  | .callNn nn => Sys2Proof.Machine.execCallNn nn s
  | .callCcNn cc nn => Sys2Proof.Machine.execCallCcNn cc nn s
  | .ret => Sys2Proof.Machine.execRet s
  | .retCc cc => Sys2Proof.Machine.execRetCc cc s
  | .rstP t => Sys2Proof.Machine.execRstP t s
  | .pushQq p => Sys2Proof.Machine.execPushQq p s
  | .popQq p => Sys2Proof.Machine.execPopQq p s
  | .pushIdx x => Sys2Proof.Machine.execPushIdx x s
  | .popIdx x => Sys2Proof.Machine.execPopIdx x s
  | .exDeHl => Sys2Proof.Machine.execExDeHl s
  | .exAfAf => Sys2Proof.Machine.execExAfAf s
  | .exx => Sys2Proof.Machine.execExx s
  | .exMSpHl => Sys2Proof.Machine.execExMSpHl s
  | .exMSpIdx x => Sys2Proof.Machine.execExMSpIdx x s
  | .rlca => Sys2Proof.Machine.execRlca s
  | .rrca => Sys2Proof.Machine.execRrca s
  | .rla => Sys2Proof.Machine.execRla s
  | .rra => Sys2Proof.Machine.execRra s
  | .rlcR r => Sys2Proof.Machine.execRlcR r s
  | .rlcMHl => Sys2Proof.Machine.execRlcMHl s
  | .rlcMIdx x d => Sys2Proof.Machine.execRlcMIdx x d s
  | .rrcR r => Sys2Proof.Machine.execRrcR r s
  | .rrcMHl => Sys2Proof.Machine.execRrcMHl s
  | .rrcMIdx x d => Sys2Proof.Machine.execRrcMIdx x d s
  | .rlR r => Sys2Proof.Machine.execRlR r s
  | .rlMHl => Sys2Proof.Machine.execRlMHl s
  | .rlMIdx x d => Sys2Proof.Machine.execRlMIdx x d s
  | .rrR r => Sys2Proof.Machine.execRrR r s
  | .rrMHl => Sys2Proof.Machine.execRrMHl s
  | .rrMIdx x d => Sys2Proof.Machine.execRrMIdx x d s
  | .slaR r => Sys2Proof.Machine.execSlaR r s
  | .slaMHl => Sys2Proof.Machine.execSlaMHl s
  | .slaMIdx x d => Sys2Proof.Machine.execSlaMIdx x d s
  | .sraR r => Sys2Proof.Machine.execSraR r s
  | .sraMHl => Sys2Proof.Machine.execSraMHl s
  | .sraMIdx x d => Sys2Proof.Machine.execSraMIdx x d s
  | .sllR r => Sys2Proof.Machine.execSllR r s
  | .sllMHl => Sys2Proof.Machine.execSllMHl s
  | .sllMIdx x d => Sys2Proof.Machine.execSllMIdx x d s
  | .srlR r => Sys2Proof.Machine.execSrlR r s
  | .srlMHl => Sys2Proof.Machine.execSrlMHl s
  | .srlMIdx x d => Sys2Proof.Machine.execSrlMIdx x d s
  | .bitBR b r => Sys2Proof.Machine.execBitBR b r s
  | .bitBMHl b => Sys2Proof.Machine.execBitBMHl b s
  | .bitBMIdx b x d => Sys2Proof.Machine.execBitBMIdx b x d s
  | .resBR b r => Sys2Proof.Machine.execResBR b r s
  | .resBMHl b => Sys2Proof.Machine.execResBMHl b s
  | .resBMIdx b x d => Sys2Proof.Machine.execResBMIdx b x d s
  | .setBR b r => Sys2Proof.Machine.execSetBR b r s
  | .setBMHl b => Sys2Proof.Machine.execSetBMHl b s
  | .setBMIdx b x d => Sys2Proof.Machine.execSetBMIdx b x d s
  | .ldi => Sys2Proof.Machine.execLdi s
  | .ldd => Sys2Proof.Machine.execLdd s
  | .ldir => Sys2Proof.Machine.execLdir s
  | .lddr => Sys2Proof.Machine.execLddr s
  | .cpi => Sys2Proof.Machine.execCpi s
  | .cpd => Sys2Proof.Machine.execCpd s
  | .cpir => Sys2Proof.Machine.execCpir s
  | .cpdr => Sys2Proof.Machine.execCpdr s
  | .inAMN n => Sys2Proof.Machine.execInAMN n s
  | .outMNA n => Sys2Proof.Machine.execOutMNA n s
  | .di => Sys2Proof.Machine.execDi s
  | .ei => Sys2Proof.Machine.execEi s
  | .im0 => Sys2Proof.Machine.execIm0 s
  | .im1 => Sys2Proof.Machine.execIm1 s
  | .im2 => Sys2Proof.Machine.execIm2 s
  | .nop => Sys2Proof.Machine.execNop s

end Sys2Proof.Machine
end

