-- ==== Sys2Proof/Machine/Step.lean ====
section
/-! DEFINITION. One step (spec/00_scope.md R2): fetch, decode, execute. -/

namespace Sys2Proof.Machine

/-- `step()`: not enabled on a faulted core (R407); an encoding outside the admitted set raises
Unimplemented after the reads that decided it (R401); an admitted instruction runs after its `len` fetch
reads (R75). -/
def step (s : State) : Host.Outcome State Fault Refusal :=
  if s.fault ≠ .none then .refused (.halted s.fault)
  else
    match decode (fetchWindow s) with
    | .ok i => exec i (fetched (instrLength i) s)
    | .error (.unimplemented bytes) => raiseUnimplemented bytes (fetched bytes.length s)

/-- `s` with the instruction of the opcode table whose bits are `w` at pc, where `step` fetches next. -/
def State.withFetchWord (s : State) (nbits w : Nat) : State := placeWindow (tableWindow nbits w) s

end Sys2Proof.Machine
end

