-- ==== Sys2Proof/Safety.lean ====
section
/-! DEFINITION. The terms claims use: which writes the platform accepts, what memory reads as after one,
how F stands after WriteF, and what a state must satisfy to be one a run can reach. -/

namespace Sys2Proof.Machine

/-- A write to an address of this kind is accepted: stored or dropped, not rejected (R63). -/
def kindAccepts (k : MemKind) : Bool :=
  match k with
  | .ram => true
  | .ignore _ => true
  | .fault _ => false

/-- The platform accepts a write to `addr` (R63). -/
def accepts (s : State) (addr : Word) : Bool := kindAccepts (memKind s addr)

/-- The state after an accepted write of `v` to `addr` (R63): stored in `ram`, dropped elsewhere. -/
def stored (addr : Word) (v : Byte) (s : State) : State :=
  { s with
    mem := if memKind s addr = .ram then memPut s.mem addr.toNat v else s.mem
    history := .memWrite addr v :: s.history }

/-- What address `x` reads as after an accepted write of `v` to `addr`, `before` being what addresses read
as before it: only `addr` changes, and only if it is `ram`. -/
def readsAfter (s : State) (addr : Word) (v : Byte) (before : Word → Byte) (x : Word) : Byte :=
  if x = addr ∧ memKind s addr = .ram then v else before x

/-- How F and the draws stand after `WriteF(f)` (R131): under `draw`, bits 5 and 3 may be anything. -/
def flagsWritten (f : Byte) (s t : State) : Prop :=
  match s.platform.xyPolicy with
  | .result => t.f = f ∧ t.draws = s.draws
  | .draw => t.f &&& 0xD7 = f &&& 0xD7 ∧ t.draws = s.draws + 1

/-- A platform that rejects no write: no range is of a `fault` kind and no port rejects (R402). -/
def neverRejects (p : Platform) : Bool :=
  p.rejectedPorts.isEmpty && p.regions.all fun r => kindAccepts r.kind

/-- The invariant of a running machine: memory is in canonical form and no fault is recorded. -/
def running (s : State) : Prop := memWf s.mem = true ∧ s.fault = .none

end Sys2Proof.Machine
end

