-- ==== Sys2Proof/Certificates/Slice0/Obligations.lean ====
section
/-! DEFINITION. The statements for the provers, each a rule of spec/ or what follows from several. The
vocabulary they share stands first. -/

open Sys2Proof Sys2Proof.Machine

namespace Sys2Proof.Claims

/-- No flag changes, and nothing is drawn (R146). -/
def sameFlags (s t : State) : Prop := t.f = s.f ∧ t.draws = s.draws

/-- Of the seven coded registers only `dst` changes, to `v`; nothing outside them changes but F, the draws,
pc and the history, which the statement gives itself. -/
def r8Becomes (dst : Reg8) (v : Byte) (s t : State) : Prop :=
  getR8 dst t = v ∧ (∀ q, q ≠ dst → getR8 q t = getR8 q s) ∧
  t = { s with
    a := t.a, b := t.b, c := t.c, d := t.d, e := t.e, h := t.h, l := t.l
    f := t.f, draws := t.draws, pc := t.pc, history := t.history }

/-- Of BC, DE, HL and SP only `p` changes, to `v`; nothing outside them changes but F, the draws, pc and
the history. -/
def pairBecomes (p : Pair) (v : Word) (s t : State) : Prop :=
  getPair p t = v ∧ (∀ q, q ≠ p → getPair q t = getPair q s) ∧
  t = { s with
    b := t.b, c := t.c, d := t.d, e := t.e, h := t.h, l := t.l, sp := t.sp
    f := t.f, draws := t.draws, pc := t.pc, history := t.history }

/-- Of IX and IY only `i` changes, to `v`; nothing else changes but F, the draws, pc and the history. -/
def idxBecomes (i : Idx) (v : Word) (s t : State) : Prop :=
  getIdx i t = v ∧ (∀ j, j ≠ i → getIdx j t = getIdx j s) ∧
  t = { s with ix := t.ix, iy := t.iy, f := t.f, draws := t.draws, pc := t.pc, history := t.history }

/-- An instruction of `len` bytes that loads `dst` from the byte at `addr`: one read, no flag. -/
def loadsByte (dst : Reg8) (addr : Word) (len : Nat) (s : State) (o : Out) : Prop :=
  ∃ t, o = .next t ∧ r8Becomes dst (peek s addr) s t ∧ sameFlags s t ∧
    t.pc = s.pc + BitVec.ofNat 16 len ∧ t.history = .memRead addr (peek s addr) :: s.history

/-- The word at `addr`, low byte at the lower address (R69). -/
def wordAt (s : State) (addr : Word) : Word := mkWord (peek s (addr + 1)) (peek s addr)

/-- The history after the two reads of a word, low byte first (R11). -/
def readWord (s : State) (addr : Word) : List Access :=
  .memRead (addr + 1) (peek s (addr + 1)) :: .memRead addr (peek s addr) :: s.history

/-- The outcome `o` of an instruction that writes `v` to `addr` after the accesses `before`. Accepted: only
`addr` can read differently, and nothing changes but memory, F, the draws, pc and the history; `done` says
the rest. Rejected: nothing has changed but the history and the fault status (R402). -/
def storesByte (addr : Word) (v : Byte) (before : List Access) (s : State) (o : Out) (done : State → Prop) : Prop :=
  (accepts s addr = true → ∃ t, o = .next t ∧ (∀ x, peek t x = readsAfter s addr v (peek s) x) ∧
    t = { s with
      mem := t.mem, f := t.f, draws := t.draws, pc := t.pc, history := .memWrite addr v :: before } ∧ done t) ∧
  (accepts s addr = false → o = .fault (.contractViolation
    { s with history := before, fault := .contractViolation s.pc .unmappedWrite addr v }))

/-- The outcome `o` of two writes, `v1` to `a1` and then `v2` to `a2`, after the accesses `before`. Both
accepted: `t` is a state in which only the two bytes and what `framed` allows have changed. The second
rejected: the first stands, nothing else has changed but the fault status. The first rejected: nothing has. -/
def storesTwo (a1 : Word) (v1 : Byte) (a2 : Word) (v2 : Byte) (before : List Access) (s : State) (o : Out)
    (done : State → Prop) : Prop :=
  (accepts s a1 = true → accepts s a2 = true → ∃ t, o = .next t ∧
    (∀ x, peek t x = readsAfter s a2 v2 (readsAfter s a1 v1 (peek s)) x) ∧
    t.history = .memWrite a2 v2 :: .memWrite a1 v1 :: before ∧ done t) ∧
  (accepts s a1 = false → o = .fault (.contractViolation
    { s with history := before, fault := .contractViolation s.pc .unmappedWrite a1 v1 })) ∧
  (accepts s a1 = true → accepts s a2 = false → ∃ u, o = .fault (.contractViolation u) ∧
    (∀ x, peek u x = readsAfter s a1 v1 (peek s) x) ∧
    u = { s with
      mem := u.mem, history := .memWrite a1 v1 :: before
      fault := .contractViolation s.pc .unmappedWrite a2 v2 })

/-- A push of `v` (R290): high byte at SP - 1, low byte at SP - 2, then SP lowered by 2; nothing else
changes but pc. -/
def pushes (v : Word) (s : State) (o : Out) (done : State → Prop) : Prop :=
  storesTwo (s.sp - 1) (hiByte v) (s.sp - 2) (loByte v) s.history s o fun t =>
    t = { s with sp := s.sp - 2, mem := t.mem, pc := t.pc, history := t.history } ∧ done t

/-- The eight accumulator operations, in the order of their codes (R93). -/
inductive AccOp where
  | add | adc | sub | sbc | and | xor | or | cp
  deriving DecidableEq, Repr

/-- The operation code ooo of spec/43_arithmetic_logic.md. -/
def accCode : AccOp → Nat
  | .add => 0
  | .adc => 1
  | .sub => 2
  | .sbc => 3
  | .and => 4
  | .xor => 5
  | .or => 6
  | .cp => 7

/-- The instruction of an accumulator operation and a source operand. -/
def accInstr : AccOp → Src → Instr
  | .add, .reg r => .addAR r
  | .add, .imm n => .addAN n
  | .add, .atHl => .addAMHl
  | .add, .atIdx i d => .addAMIdx i d
  | .adc, .reg r => .adcAR r
  | .adc, .imm n => .adcAN n
  | .adc, .atHl => .adcAMHl
  | .adc, .atIdx i d => .adcAMIdx i d
  | .sub, .reg r => .subR r
  | .sub, .imm n => .subN n
  | .sub, .atHl => .subMHl
  | .sub, .atIdx i d => .subMIdx i d
  | .sbc, .reg r => .sbcAR r
  | .sbc, .imm n => .sbcAN n
  | .sbc, .atHl => .sbcAMHl
  | .sbc, .atIdx i d => .sbcAMIdx i d
  | .and, .reg r => .andR r
  | .and, .imm n => .andN n
  | .and, .atHl => .andMHl
  | .and, .atIdx i d => .andMIdx i d
  | .xor, .reg r => .xorR r
  | .xor, .imm n => .xorN n
  | .xor, .atHl => .xorMHl
  | .xor, .atIdx i d => .xorMIdx i d
  | .or, .reg r => .orR r
  | .or, .imm n => .orN n
  | .or, .atHl => .orMHl
  | .or, .atIdx i d => .orMIdx i d
  | .cp, .reg r => .cpR r
  | .cp, .imm n => .cpN n
  | .cp, .atHl => .cpMHl
  | .cp, .atIdx i d => .cpMIdx i d

/-- The bytes of an accumulator operation (the table of spec/43_arithmetic_logic.md). -/
def accBytes (op : AccOp) : Src → List Byte
  | .reg r => [BitVec.ofNat 8 (0x80 + 8 * accCode op + reg8Code r)]
  | .imm n => [BitVec.ofNat 8 (0xC6 + 8 * accCode op), n]
  | .atHl => [BitVec.ofNat 8 (0x86 + 8 * accCode op)]
  | .atIdx i d => [idxPrefix i, BitVec.ofNat 8 (0x86 + 8 * accCode op), d]

/-- The operand byte of each form of `s` (R167). -/
def srcByte (x : Src) (s : State) : Byte :=
  match x with
  | .reg r => getR8 r s
  | .imm n => n
  | .atHl => peek s (getHl s)
  | .atIdx i d => peek s (eaIdx i d s)

/-- The history after the read a form of `s` makes: one for a memory form, none otherwise (R72). -/
def srcHistory (x : Src) (s : State) : List Access :=
  match x with
  | .reg _ => s.history
  | .imm _ => s.history
  | .atHl => .memRead (getHl s) (peek s (getHl s)) :: s.history
  | .atIdx i d => .memRead (eaIdx i d s) (peek s (eaIdx i d s)) :: s.history

/-- `len` of each form of `s` (R167). -/
def srcLen : Src → Nat
  | .reg _ => 1
  | .imm _ => 2
  | .atHl => 1
  | .atIdx _ _ => 3

/-- An accumulator operation with operand `x` completes: A and the flags of `f` are as given, only A, F, the
draws, pc and the history have changed. -/
def accDone (op : AccOp) (x : Src) (acc f : Byte) (s : State) : Prop :=
  encode (accInstr op x) = accBytes op x ∧
  ∃ t, exec (accInstr op x) s = .next t ∧ t.a = acc ∧ flagsWritten f s t ∧ t.history = srcHistory x s ∧
    t.pc = s.pc + BitVec.ofNat 16 (srcLen x) ∧
    t = { s with a := t.a, f := t.f, draws := t.draws, pc := t.pc, history := t.history }

/-- The history after the read of a memory location `m`. -/
def locHistory (x : Loc) (s : State) : List Access :=
  .memRead (locAddr x s) (peek s (locAddr x s)) :: s.history

/-- The register form of an eight-way rotate or shift. -/
def shiftReg : ShiftOp → Reg8 → Instr
  | .rlc, r => .rlcR r
  | .rrc, r => .rrcR r
  | .rl, r => .rlR r
  | .rr, r => .rrR r
  | .sla, r => .slaR r
  | .sra, r => .sraR r
  | .sll, r => .sllR r
  | .srl, r => .srlR r

/-- The memory forms of an eight-way rotate or shift. -/
def shiftMem : ShiftOp → Loc → Instr
  | .rlc, .atHl => .rlcMHl
  | .rlc, .atIdx i d => .rlcMIdx i d
  | .rrc, .atHl => .rrcMHl
  | .rrc, .atIdx i d => .rrcMIdx i d
  | .rl, .atHl => .rlMHl
  | .rl, .atIdx i d => .rlMIdx i d
  | .rr, .atHl => .rrMHl
  | .rr, .atIdx i d => .rrMIdx i d
  | .sla, .atHl => .slaMHl
  | .sla, .atIdx i d => .slaMIdx i d
  | .sra, .atHl => .sraMHl
  | .sra, .atIdx i d => .sraMIdx i d
  | .sll, .atHl => .sllMHl
  | .sll, .atIdx i d => .sllMIdx i d
  | .srl, .atHl => .srlMHl
  | .srl, .atIdx i d => .srlMIdx i d

/-- The operation number o of R314. -/
def shiftCode : ShiftOp → Nat
  | .rlc => 0
  | .rrc => 1
  | .rl => 2
  | .rr => 3
  | .sla => 4
  | .sra => 5
  | .sll => 6
  | .srl => 7

/-- The bytes of a 0xCB-page operation with sub-opcode `op` on a memory location (R94, R97). -/
def cbBytes (op : Nat) : Loc → List Byte
  | .atHl => [0xCB, BitVec.ofNat 8 op]
  | .atIdx i d => [idxPrefix i, 0xCB, d, BitVec.ofNat 8 op]

/-- `len` of a 0xCB-page operation on a memory location (R168). -/
def cbLen : Loc → Nat
  | .atHl => 2
  | .atIdx _ _ => 4

/-- BIT, SET and RES of a memory location. -/
def bitMem (b : Fin 8) : Loc → Instr
  | .atHl => .bitBMHl b
  | .atIdx i d => .bitBMIdx b i d

def setMem (b : Fin 8) : Loc → Instr
  | .atHl => .setBMHl b
  | .atIdx i d => .setBMIdx b i d

def resMem (b : Fin 8) : Loc → Instr
  | .atHl => .resBMHl b
  | .atIdx i d => .resBMIdx b i d

/-- The address `k` bytes on from `addr`, upward or downward, mod 65536. -/
def moved (up : Bool) (addr : Word) (k : Nat) : Word :=
  if up then addr + BitVec.ofNat 16 k else addr - BitVec.ofNat 16 k

/-- How many iterations a repeat group can make: BC, or 65536 for BC = 0 (R358). -/
def groupSize (s : State) : Nat := if getBc s = 0 then 65536 else (getBc s).toNat

/-- What addresses read as after `n` iterations of a block transfer from `src` to `dst`, `before` being what
they read as at its start: byte by byte, each read seeing the writes before it (R352). -/
def copied (s : State) (up : Bool) : Nat → Word → Word → (Word → Byte) → Word → Byte
  | 0, _, _, before => before
  | n + 1, src, dst, before =>
    copied s up n (moved up src 1) (moved up dst 1) (readsAfter s dst (before src) before)

/-- The byte iteration `k` of a block transfer copies: what its source reads as after the `k` iterations
before it (R352). -/
def copiedByte (s : State) (up : Bool) (k : Nat) : Byte :=
  copied s up k (getHl s) (getDe s) (peek s) (moved up (getHl s) k)

/-- The two accesses of iteration `k` of a block transfer, in order (R72, R352). -/
def transferAccesses (s : State) (up : Bool) (k : Nat) : List Access :=
  [.memRead (moved up (getHl s) k) (copiedByte s up k), .memWrite (moved up (getDe s) k) (copiedByte s up k)]

/-- The history after `n` iterations of a block transfer: those of iteration k all precede those of k + 1
(R81). -/
def transferHistory (s : State) (up : Bool) (n : Nat) : List Access :=
  ((List.range n).flatMap (transferAccesses s up)).reverse ++ s.history

/-- The history after `n` iterations of a block compare: one read each, at HL and onward (R72, R81, R356). -/
def compareHistory (s : State) (up : Bool) (n : Nat) : List Access :=
  ((List.range n).map fun k =>
    Access.memRead (moved up (getHl s) k) (peek s (moved up (getHl s) k))).reverse ++ s.history

/-- BC, DE, HL, F, the draws, memory, pc and the history are all that has changed. -/
def blockFrame (s t : State) : Prop :=
  t = { s with
    b := t.b, c := t.c, d := t.d, e := t.e, h := t.h, l := t.l
    f := t.f, draws := t.draws, mem := t.mem, pc := t.pc, history := t.history }

/-- The 27 second bytes admitted after 0xED (R102). -/
def edAdmitted : List Byte :=
  [0x42, 0x52, 0x62, 0x72, 0x4A, 0x5A, 0x6A, 0x7A, 0x43, 0x53, 0x63, 0x73, 0x4B, 0x5B, 0x6B, 0x7B,
   0x46, 0x56, 0x5E, 0xA0, 0xA8, 0xB0, 0xB8, 0xA1, 0xA9, 0xB1, 0xB9]

/-- The 39 second bytes other than 0xCB admitted after 0xDD and 0xFD (R103). -/
def idxAdmitted : List Byte :=
  [0x09, 0x19, 0x29, 0x39, 0x21, 0x22, 0x2A, 0x23, 0x2B, 0x34, 0x35, 0x36,
   0x46, 0x4E, 0x56, 0x5E, 0x66, 0x6E, 0x7E, 0x70, 0x71, 0x72, 0x73, 0x74, 0x75, 0x77,
   0x86, 0x8E, 0x96, 0x9E, 0xA6, 0xAE, 0xB6, 0xBE, 0xE1, 0xE3, 0xE5, 0xE9, 0xF9]

/-- The encodings outside the admitted set, with the bytes that decide it (R99, R105). -/
def notAdmitted (w : Window) (bytes : List Byte) : Prop :=
  (w.b0 ∈ [0x27, 0x37, 0x3F, 0x76] ∧ bytes = [w.b0]) ∨
  (w.b0 = 0xED ∧ w.b1 ∉ edAdmitted ∧ bytes = [w.b0, w.b1]) ∨
  ((w.b0 = 0xDD ∨ w.b0 = 0xFD) ∧ w.b1 ≠ 0xCB ∧ w.b1 ∉ idxAdmitted ∧ bytes = [w.b0, w.b1]) ∨
  ((w.b0 = 0xDD ∨ w.b0 = 0xFD) ∧ w.b1 = 0xCB ∧ w.b3.toNat % 8 ≠ 6 ∧ bytes = [w.b0, w.b1, w.b2, w.b3])

/-- The history after `n` fetch reads at pc upward (R75). -/
def fetchHistory (n : Nat) (s : State) : List Access :=
  ((List.range n).map fun k =>
    Access.memRead (s.pc + BitVec.ofNat 16 k) (peek s (s.pc + BitVec.ofNat 16 k))).reverse ++ s.history

/-- The instructions that write F (R31). -/
def writesFlags : Instr → Bool
  | .addAR _ | .addAN _ | .addAMHl | .addAMIdx _ _ | .adcAR _ | .adcAN _ | .adcAMHl | .adcAMIdx _ _
  | .subR _ | .subN _ | .subMHl | .subMIdx _ _ | .sbcAR _ | .sbcAN _ | .sbcAMHl | .sbcAMIdx _ _ | .andR _
  | .andN _ | .andMHl | .andMIdx _ _ | .xorR _ | .xorN _ | .xorMHl | .xorMIdx _ _ | .orR _ | .orN _
  | .orMHl | .orMIdx _ _ | .cpR _ | .cpN _ | .cpMHl | .cpMIdx _ _ | .incR _ | .incMHl | .incMIdx _ _
  | .decR _ | .decMHl | .decMIdx _ _ | .cpl | .addHlSs _ | .addIdxPp _ _ | .adcHlSs _ | .sbcHlSs _ | .rlca
  | .rla | .rrca | .rra | .rlcR _ | .rlcMHl | .rlcMIdx _ _ | .rrcR _ | .rrcMHl | .rrcMIdx _ _ | .rlR _
  | .rlMHl | .rlMIdx _ _ | .rrR _ | .rrMHl | .rrMIdx _ _ | .slaR _ | .slaMHl | .slaMIdx _ _ | .sraR _
  | .sraMHl | .sraMIdx _ _ | .sllR _ | .sllMHl | .sllMIdx _ _ | .srlR _ | .srlMHl | .srlMIdx _ _
  | .bitBR _ _ | .bitBMHl _ | .bitBMIdx _ _ _ | .ldi | .ldd | .ldir | .lddr | .cpi | .cpd | .cpir | .cpdr
  | .popQq .af | .exAfAf => true
  | _ => false

/-- The instructions that write memory or a port, and so can raise ContractViolation (R403). -/
def canViolate : Instr → Bool
  | .ldMHlR _ | .ldMHlN _ | .ldMIdxR _ _ _ | .ldMIdxN _ _ _ | .ldMBcA | .ldMDeA | .ldMNnA _ | .ldMNnHl _
  | .ldMNnDd _ _ | .ldMNnIdx _ _ | .incMHl | .incMIdx _ _ | .decMHl | .decMIdx _ _ | .rlcMHl | .rlcMIdx _ _
  | .rrcMHl | .rrcMIdx _ _ | .rlMHl | .rlMIdx _ _ | .rrMHl | .rrMIdx _ _ | .slaMHl | .slaMIdx _ _ | .sraMHl
  | .sraMIdx _ _ | .sllMHl | .sllMIdx _ _ | .srlMHl | .srlMIdx _ _ | .setBMHl _ | .setBMIdx _ _ _
  | .resBMHl _ | .resBMIdx _ _ _ | .pushQq _ | .pushIdx _ | .callNn _ | .callCcNn _ _ | .rstP _ | .exMSpHl
  | .exMSpIdx _ | .ldi | .ldd | .ldir | .lddr | .outMNA _ => true
  | _ => false

end Sys2Proof.Claims

open Sys2Proof.Claims

/-- For every well-formed instruction, with every value of its operands, and whatever bytes follow, decoding the
bytes of its encoding gives that instruction. Formalises: 30_encoding.md sections 1 to 4 (R91 to R104). What in
it is the spec's own supply or the model's choice, not the source's words: the opcode map and formats, but for
the seven opcodes the source gives (G1, G2, G5, G7 to G11, log entry 14); which encodings are admitted (D1, D2,
D29, D34, log entry 16). -/
def Obligations.DecodingAnEncodingGivesItBack : Prop :=
  ∀ (i : Instr) (tail : List Byte), i.wellFormed = true → decode (windowOf (encode i ++ tail)) = .ok i

/-- If four bytes decode to an instruction, it is well-formed and the first len of them are exactly its
encoding. Formalises: 30_encoding.md sections 1 to 4 (R91 to R104). What in it is the spec's own supply or the
model's choice, not the source's words: the opcode map and formats, but for the seven opcodes the source gives
(G1, G2, G5, G7 to G11, log entry 14); which encodings are admitted (D1, D2, D29, D34, log entry 16). -/
def Obligations.DecodedBytesAreTheEncoding : Prop :=
  ∀ (w : Window) (i : Instr), decode w = .ok i →
    i.wellFormed = true ∧ (windowBytes w).take (instrLength i) = encode i

/-- Decoding answers unimplemented with the bytes b if and only if the encoding is one of those R105 lists and b
are the bytes R99 reads to decide it: 1 on the main page, 2 after 0xED, 0xDD or 0xFD, 4 under 0xDD 0xCB or 0xFD
0xCB. Formalises: 30_encoding.md sections 3, 4 and 5 (R99, R102, R103, R104, R105). What in it is the spec's own
supply or the model's choice, not the source's words: which encodings are admitted (D1, D2, log entry 16); the
numbers of the four main-page bytes and of the admitted second bytes (G1, G7, G11, log entry 14); which bytes
decide (D19, log entry 16). -/
def Obligations.RejectedEncodingsAreExactlyTheNonAdmitted : Prop :=
  ∀ (w : Window) (bytes : List Byte), decode w = .error (.unimplemented bytes) ↔ notAdmitted w bytes

/-- 4D is LD C,L; 2F is CPL; 90 is SUB B; 09 is ADD HL,BC; CB 41 is BIT 0,C; CD 10 22 is CALL 2210h; C9 is RET;
and DD 36 05 5A, FD CB FF 1E, ED 4B 30 21, D9, ED B0, DB 01 and ED 5E are LD (IX+5),5Ah, RR (IY-1), LD
BC,(2130h), EXX, LDIR, IN A,(1) and IM 2. Formalises: 30_encoding.md introduction and section 4 (R100, R101,
R102, R103), 95_test_vectors.md part 1. What in it is the spec's own supply or the model's choice, not the
source's words: the seven words after the opcodes the source gives, DD 36 05 5A to ED 5E, which rest on the
presumed opcode map (G1, G5, G9, G10, log entry 14). -/
def Obligations.WordsOfTheSpecDecodeRight : Prop :=
  decode (windowOf [0x4D]) = .ok (.ldRR .c .l) ∧
  decode (windowOf [0x2F]) = .ok .cpl ∧
  decode (windowOf [0x90]) = .ok (.subR .b) ∧
  decode (windowOf [0x09]) = .ok (.addHlSs .bc) ∧
  decode (windowOf [0xCB, 0x41]) = .ok (.bitBR 0 .c) ∧
  decode (windowOf [0xCD, 0x10, 0x22]) = .ok (.callNn 0x2210) ∧
  decode (windowOf [0xC9]) = .ok .ret ∧
  decode (windowOf [0xDD, 0x36, 0x05, 0x5A]) = .ok (.ldMIdxN .ix 0x05 0x5A) ∧
  decode (windowOf [0xFD, 0xCB, 0xFF, 0x1E]) = .ok (.rrMIdx .iy 0xFF) ∧
  decode (windowOf [0xED, 0x4B, 0x30, 0x21]) = .ok (.ldDdMNn .bc 0x2130) ∧
  decode (windowOf [0xD9]) = .ok .exx ∧
  decode (windowOf [0xED, 0xB0]) = .ok .ldir ∧
  decode (windowOf [0xDB, 0x01]) = .ok (.inAMN 0x01) ∧
  decode (windowOf [0xED, 0x5E]) = .ok .im2

/-- If no fault is recorded and the four bytes at pc, pc+1, pc+2, pc+3 decode to an instruction i, then the step
is exec of i at a state that differs from s only in the history, which has the len fetch reads in ascending
order added. Formalises: 00_scope.md R2, R12, 20_memory.md R75, 30_encoding.md R99. What in it is the spec's own
supply or the model's choice, not the source's words: that exactly the len fetch reads are made, ascending (D19,
log entry 16), recorded as log entry 6 has it. -/
def Obligations.StepRunsTheDecodedInstruction : Prop :=
  ∀ (s : State) (i : Instr), s.fault = .none →
    decode { b0 := peek s s.pc, b1 := peek s (s.pc + 1), b2 := peek s (s.pc + 2), b3 := peek s (s.pc + 3) } = .ok i →
    step s = exec i { s with history := fetchHistory (instrLength i) s }

/-- If no fault is recorded and the bytes at pc are an encoding that R105 lists as not admitted, the step faults
with Unimplemented: the state left is the one before, with the deciding bytes read (1, 2 or 4) and the fault
status set to the pc of the first byte and those bytes; no register, flag, IFF, IM or memory byte has changed.
Formalises: 60_exceptions.md R401. What in it is the spec's own supply or the model's choice, not the source's
words: which encodings are admitted, what the fault leaves and which bytes are read (D1, D2, D3, D19, log entry
16); the numbers of the admitted second bytes (G1, G7, G11, log entry 14); the fault that carries the state left
(log entry 5) and the record of the reads (log entry 6). -/
def Obligations.UnimplementedChangesNothingButTheFaultStatus : Prop :=
  ∀ (s : State) (bytes : List Byte), s.fault = .none →
    notAdmitted { b0 := peek s s.pc, b1 := peek s (s.pc + 1), b2 := peek s (s.pc + 2), b3 := peek s (s.pc + 3) } bytes →
    step s = .fault (.unimplemented
      { s with history := fetchHistory bytes.length s, fault := .unimplemented s.pc bytes })

/-- A step of a state whose fault status is not none is refused, naming the fault, and answers no state; the
host reset sets the status to none. Formalises: 60_exceptions.md section 2 (R406, R407),
93_implementation_defined.md U2. What in it is the spec's own supply or the model's choice, not the source's
words: the sticky fault (D3, log entry 16); the refusal under the name halted (log entry 5); hostReset as the
form of reset() (log entry 15). -/
def Obligations.FaultedCoreDoesNotStep : Prop :=
  ∀ s : State, (s.fault ≠ .none → step s = .refused (.halted s.fault)) ∧ (hostReset s).fault = .none

/-- Whatever the state before, reset() gives 0xFF in the sixteen 8-bit registers, 0xFFFF in IX, IY and SP, pc 0,
IFF true, IM 0 and no fault; memory, the platform and the I/O history stay; it is idempotent; after it the
conditions Z, C, PE, M hold and NZ, NC, PO, P do not; the state right after reset has these registers too.
Formalises: 10_state.md R38, 70_reset_and_hazards.md R441. What in it is the spec's own supply or the model's
choice, not the source's words: the fault status none, and that memory and I/O are not touched (D3, D22, log
entry 16); that the platform, the history and the count of draws stay (log entry 15). -/
def Obligations.ResetInstallsTheDocumentedState : Prop :=
  ∀ s : State,
    hostReset s =
      { a := 0xFF, f := 0xFF, b := 0xFF, c := 0xFF, d := 0xFF, e := 0xFF, h := 0xFF, l := 0xFF
        a' := 0xFF, f' := 0xFF, b' := 0xFF, c' := 0xFF, d' := 0xFF, e' := 0xFF, h' := 0xFF, l' := 0xFF
        ix := 0xFFFF, iy := 0xFFFF, sp := 0xFFFF, pc := 0x0000, iff := true, im := .mode0, fault := .none
        mem := s.mem, platform := s.platform, history := s.history, draws := s.draws } ∧
    hostReset (hostReset s) = hostReset s ∧
    (∀ cc, condHolds cc (hostReset s) = true ↔ cc = .z ∨ cc = .c ∨ cc = .pe ∨ cc = .m) ∧
    hostReset State.reset = State.reset

/-- For every byte, parity is true exactly if an even number of its eight bits are set; parity of 0, 129 and 255
is true, of 127 and 128 false. Formalises: R130. -/
def Obligations.ParityIsTrueForAnEvenNumberOfBits : Prop :=
  (∀ v : Byte, parity v = true ↔ ((List.range 8).countP fun k => v.getLsbD k) % 2 = 0) ∧
  parity 0 = true ∧ parity 127 = false ∧ parity 128 = false ∧ parity 129 = true ∧ parity 255 = true

/-- The result is a + b + cin mod 256; S, b5, b3 are bits 7, 5, 3 of it and Z says it is 0; C is set iff the sum
exceeds 255, H iff the sum of the low nibbles and cin exceeds 15; PV is set iff a and b have the same sign and
the result another, equivalently iff the signed sum lies outside -128..127; N is 0. Formalises: R133. -/
def Obligations.AddFlagsAreThoseOfTheExactSum : Prop :=
  ∀ (a b r f : Byte) (cin : Bool), add8 a b cin = (r, f) →
    r.toNat = (a.toNat + b.toNat + cin.toNat) % 256 ∧
    flagS f = r.getLsbD 7 ∧ (flagZ f = true ↔ r = 0) ∧ flag5 f = r.getLsbD 5 ∧ flag3 f = r.getLsbD 3 ∧
    (flagC f = true ↔ a.toNat + b.toNat + cin.toNat > 255) ∧
    (flagH f = true ↔ a.toNat % 16 + b.toNat % 16 + cin.toNat > 15) ∧
    (flagPV f = true ↔ a.getLsbD 7 = b.getLsbD 7 ∧ r.getLsbD 7 ≠ a.getLsbD 7) ∧
    (flagPV f = true ↔ a.toInt + b.toInt + cin.toNat < -128 ∨ a.toInt + b.toInt + cin.toNat > 127) ∧
    flagN f = false

/-- The result is a - b - cin mod 256; S, b5, b3 are bits 7, 5, 3 of it and Z says it is 0; C is set iff the
difference is negative, H iff that of the low nibbles and cin is; PV is set iff a and b differ in sign and the
result differs from a, equivalently iff the signed difference lies outside -128..127; N is 1. Formalises: R134.
-/
def Obligations.SubtractFlagsAreThoseOfTheExactDifference : Prop :=
  ∀ (a b r f : Byte) (cin : Bool), sub8 a b cin = (r, f) →
    (r.toNat : Int) = ((a.toNat : Int) - b.toNat - cin.toNat) % 256 ∧
    flagS f = r.getLsbD 7 ∧ (flagZ f = true ↔ r = 0) ∧ flag5 f = r.getLsbD 5 ∧ flag3 f = r.getLsbD 3 ∧
    (flagC f = true ↔ (a.toNat : Int) - b.toNat - cin.toNat < 0) ∧
    (flagH f = true ↔ ((a.toNat % 16 : Nat) : Int) - (b.toNat % 16 : Nat) - cin.toNat < 0) ∧
    (flagPV f = true ↔ a.getLsbD 7 ≠ b.getLsbD 7 ∧ r.getLsbD 7 ≠ a.getLsbD 7) ∧
    (flagPV f = true ↔ a.toInt - b.toInt - cin.toNat < -128 ∨ a.toInt - b.toInt - cin.toNat > 127) ∧
    flagN f = true

/-- inc8 gives v + 1 mod 256, H iff the low nibble was 0xF, PV iff v was 0x7F, N 0; dec8 gives v - 1 mod 256, H
iff the low nibble was 0, PV iff v was 0x80, N 1; both: S, b5, b3, Z from the result, C as in the old flag byte.
Formalises: R135, R136. -/
def Obligations.IncrementAndDecrementFlags : Prop :=
  ∀ (v fold r f : Byte),
    (inc8 v fold = (r, f) →
      r.toNat = (v.toNat + 1) % 256 ∧ flagS f = r.getLsbD 7 ∧ (flagZ f = true ↔ r = 0) ∧ flag5 f = r.getLsbD 5 ∧ flag3 f = r.getLsbD 3 ∧
      (flagH f = true ↔ v.toNat % 16 = 0xF) ∧ (flagPV f = true ↔ v = 0x7F) ∧ flagN f = false ∧ flagC f = flagC fold) ∧
    (dec8 v fold = (r, f) →
      r.toNat = (v.toNat + 255) % 256 ∧ flagS f = r.getLsbD 7 ∧ (flagZ f = true ↔ r = 0) ∧ flag5 f = r.getLsbD 5 ∧ flag3 f = r.getLsbD 3 ∧
      (flagH f = true ↔ v.toNat % 16 = 0) ∧ (flagPV f = true ↔ v = 0x80) ∧ flagN f = true ∧ flagC f = flagC fold)

/-- AND, OR and XOR act bit by bit; S, b5, b3, Z come from the result, H is 1 for AND and 0 for OR and XOR, PV
is the parity of the result, N and C are 0. Formalises: R137. -/
def Obligations.LogicFlags : Prop :=
  ∀ (op : LogicOp) (a b r f : Byte), logic8 op a b = (r, f) →
    (∀ k, r.getLsbD k = match op with
      | .and => a.getLsbD k && b.getLsbD k
      | .or => a.getLsbD k || b.getLsbD k
      | .xor => a.getLsbD k ^^ b.getLsbD k) ∧
    flagS f = r.getLsbD 7 ∧ (flagZ f = true ↔ r = 0) ∧ flag5 f = r.getLsbD 5 ∧ flag3 f = r.getLsbD 3 ∧
    (flagH f = true ↔ op = .and) ∧ flagPV f = parity r ∧ flagN f = false ∧ flagC f = false

/-- The result is a + b mod 65536; C is the carry out of bit 15, H the carry out of bit 11, N is 0; S, Z, b5, b3
and PV are those of the old flag byte, Z included when the sum is zero. Formalises: 40_flag_unit.md R138. What
in it is the spec's own supply or the model's choice, not the source's words: H as the carry out of bit 11
(marked derived). -/
def Obligations.AddWordFlags : Prop :=
  ∀ (a b r : Word) (fold f : Byte), add16 a b fold = (r, f) →
    r.toNat = (a.toNat + b.toNat) % 65536 ∧
    (flagC f = true ↔ a.toNat + b.toNat > 65535) ∧
    (flagH f = true ↔ a.toNat % 4096 + b.toNat % 4096 > 4095) ∧ flagN f = false ∧
    flagS f = flagS fold ∧ flagZ f = flagZ fold ∧ flag5 f = flag5 fold ∧ flag3 f = flag3 fold ∧
    flagPV f = flagPV fold

/-- The results are a + b + cin and a - b - cin mod 65536; S, b5, b3 are bits 15, 13, 11 of the result and Z
says all 16 bits are 0; C is the carry or borrow out of bit 15, H out of bit 11; PV is the sign rule, which
holds iff the signed result lies outside -32768..32767; N is 0 for adc16 and 1 for sbc16. Formalises:
40_flag_unit.md R139, R140. What in it is the spec's own supply or the model's choice, not the source's words:
bits 5 and 3 and S from the high byte (D6, log entry 16) and G18 (log entry 14). -/
def Obligations.AddAndSubtractWordWithCarryFlags : Prop :=
  ∀ (a b r : Word) (f : Byte) (cin : Bool),
    (adc16 a b cin = (r, f) →
      r.toNat = (a.toNat + b.toNat + cin.toNat) % 65536 ∧
      flagS f = r.getLsbD 15 ∧ (flagZ f = true ↔ r = 0) ∧ flag5 f = r.getLsbD 13 ∧ flag3 f = r.getLsbD 11 ∧
      (flagH f = true ↔ a.toNat % 4096 + b.toNat % 4096 + cin.toNat > 4095) ∧
      (flagPV f = true ↔ a.getLsbD 15 = b.getLsbD 15 ∧ r.getLsbD 15 ≠ a.getLsbD 15) ∧
      (flagPV f = true ↔ a.toInt + b.toInt + cin.toNat < -32768 ∨ a.toInt + b.toInt + cin.toNat > 32767) ∧
      flagN f = false ∧ (flagC f = true ↔ a.toNat + b.toNat + cin.toNat > 65535)) ∧
    (sbc16 a b cin = (r, f) →
      (r.toNat : Int) = ((a.toNat : Int) - b.toNat - cin.toNat) % 65536 ∧
      flagS f = r.getLsbD 15 ∧ (flagZ f = true ↔ r = 0) ∧ flag5 f = r.getLsbD 13 ∧ flag3 f = r.getLsbD 11 ∧
      (flagH f = true ↔ ((a.toNat % 4096 : Nat) : Int) - (b.toNat % 4096 : Nat) - cin.toNat < 0) ∧
      (flagPV f = true ↔ a.getLsbD 15 ≠ b.getLsbD 15 ∧ r.getLsbD 15 ≠ a.getLsbD 15) ∧
      (flagPV f = true ↔ a.toInt - b.toInt - cin.toNat < -32768 ∨ a.toInt - b.toInt - cin.toNat > 32767) ∧
      flagN f = true ∧ (flagC f = true ↔ (a.toNat : Int) - b.toNat - cin.toNat < 0))

/-- The accumulator flag rule sets C to the bit shifted out, clears H and N and keeps S, Z, b5, b3 and PV; the
register-or-memory flag rule sets S, b5, b3, Z from the result, PV to its parity, H and N to 0, C to the bit
shifted out. Formalises: R141, R142. -/
def Obligations.RotateFlags : Prop :=
  (∀ (cout : Bool) (fold f : Byte), rotAFlags cout fold = f →
    flagC f = cout ∧ flagH f = false ∧ flagN f = false ∧ flagS f = flagS fold ∧ flagZ f = flagZ fold ∧
    flag5 f = flag5 fold ∧ flag3 f = flag3 fold ∧ flagPV f = flagPV fold) ∧
  (∀ (r f : Byte) (cout : Bool), rotFlags r cout = f →
    flagS f = r.getLsbD 7 ∧ (flagZ f = true ↔ r = 0) ∧ flag5 f = r.getLsbD 5 ∧ flag3 f = r.getLsbD 3 ∧
    flagPV f = parity r ∧ flagH f = false ∧ flagN f = false ∧ flagC f = cout)

/-- shift gives, as numbers, 2v mod 256 or v / 2 with the entering bit added, and the bit that leaves.
Formalises: 46_rotate_shift.md section 2 (R314). What in it is the spec's own supply or the model's choice, not
the source's words: the bit movements (G4, log entry 14). -/
def Obligations.ShiftFunctionIsArithmetic : Prop :=
  ∀ (v : Byte) (cin : Bool),
    (shift .rlc v cin).1.toNat = 2 * v.toNat % 256 + v.toNat / 128 ∧
    (shift .rrc v cin).1.toNat = v.toNat / 2 + 128 * (v.toNat % 2) ∧
    (shift .rl v cin).1.toNat = 2 * v.toNat % 256 + cin.toNat ∧
    (shift .rr v cin).1.toNat = v.toNat / 2 + 128 * cin.toNat ∧
    (shift .sla v cin).1.toNat = 2 * v.toNat % 256 ∧
    (shift .sra v cin).1.toNat = v.toNat / 2 + 128 * (v.toNat / 128) ∧
    (shift .sll v cin).1.toNat = 2 * v.toNat % 256 + 1 ∧
    (shift .srl v cin).1.toNat = v.toNat / 2 ∧
    (∀ op, op = .rlc ∨ op = .rl ∨ op = .sla ∨ op = .sll → ((shift op v cin).2 = true ↔ v.toNat ≥ 128)) ∧
    (∀ op, op = .rrc ∨ op = .rr ∨ op = .sra ∨ op = .srl → ((shift op v cin).2 = true ↔ v.toNat % 2 = 1))

/-- BIT: Z and PV say the tested bit is 0, S is set only for bit 7 set, b5 and b3 are bits 5 and 3 of x, H 1, N
0, C kept. Transfer: H and N 0, PV iff BC is not 0, the others kept. Compare: S, Z, H, b5, b3 of sub8(A, m, 0),
N 1, PV iff BC is not 0, C kept. Formalises: 40_flag_unit.md R143, R144, R145. What in it is the spec's own
supply or the model's choice, not the source's words: the three flag tables where the source is silent (D7, D8,
D9, log entry 16); the transfer table (G18, log entry 14). -/
def Obligations.BitTestAndBlockFlags : Prop :=
  (∀ (b : Fin 8) (x fold f : Byte), bitFlags b x fold = f →
    (flagZ f = true ↔ x.getLsbD b.val = false) ∧ flagPV f = flagZ f ∧
    (flagS f = true ↔ b = 7 ∧ x.getLsbD 7 = true) ∧ flag5 f = x.getLsbD 5 ∧ flag3 f = x.getLsbD 3 ∧
    flagH f = true ∧ flagN f = false ∧ flagC f = flagC fold) ∧
  (∀ (bc : Word) (fold f : Byte), ldblockFlags bc fold = f →
    flagH f = false ∧ flagN f = false ∧ (flagPV f = true ↔ bc ≠ 0) ∧ flagS f = flagS fold ∧
    flagZ f = flagZ fold ∧ flag5 f = flag5 fold ∧ flag3 f = flag3 fold ∧ flagC f = flagC fold) ∧
  (∀ (a m fold f g r : Byte) (bc : Word), sub8 a m false = (r, g) → cpblockFlags a m bc fold = f →
    flagS f = flagS g ∧ flagZ f = flagZ g ∧ flagH f = flagH g ∧ flag5 f = flag5 g ∧ flag3 f = flag3 g ∧
    flagN f = true ∧ (flagPV f = true ↔ bc ≠ 0) ∧ flagC f = flagC fold)

/-- Under result, WriteF(f) only replaces F by f. Under draw, F gets the bits of f outside the mask 0x28 and,
for bits 5 and 3, those of some byte, and one draw is counted. The byte is a free value of the model (log entry
4). Formalises: 40_flag_unit.md section 1 (R131). What in it is the spec's own supply or the model's choice, not
the source's words: the policy (D5, log entry 16); the byte drawn and the count of draws (log entry 4). -/
def Obligations.WriteFFollowsThePolicy : Prop :=
  ∀ (f : Byte) (s : State),
    (s.platform.xyPolicy = .result → writeF f s = { s with f := f }) ∧
    (s.platform.xyPolicy = .draw → ∃ x : Byte,
      writeF f s = { s with f := (f &&& 0xD7) ||| (x &&& 0x28), draws := s.draws + 1 })

/-- The register codes 0 to 5 and 7 name B, C, D, E, H, L, A and 6 none, and reading or writing one reads or
writes that register alone (R24); the pair codes 0 to 3 name BC, DE, HL, SP (R25), and for PUSH and POP BC, DE,
HL, AF (R26). For every pair code and value, set_pair then get_pair returns the value; B, D, H, A are the high
bytes of BC, DE, HL, AF and C, E, L, F the low bytes; reading a pair is high:low; writing a pair writes these
two registers and nothing else; IX, IY and SP are cells of their own. Formalises: R26, R27. -/
def Obligations.PairsAreViewsOfTheirHalves : Prop :=
  ∀ (x : Byte) (v : Word) (s : State),
    (getR8 .b s = s.b ∧ getR8 .c s = s.c ∧ getR8 .d s = s.d ∧ getR8 .e s = s.e ∧ getR8 .h s = s.h ∧
      getR8 .l s = s.l ∧ getR8 .a s = s.a) ∧
    (setR8 .b x s = { s with b := x } ∧ setR8 .c x s = { s with c := x } ∧ setR8 .d x s = { s with d := x } ∧
      setR8 .e x s = { s with e := x } ∧ setR8 .h x s = { s with h := x } ∧ setR8 .l x s = { s with l := x } ∧
      setR8 .a x s = { s with a := x }) ∧
    (reg8Code .b = 0 ∧ reg8Code .c = 1 ∧ reg8Code .d = 2 ∧ reg8Code .e = 3 ∧ reg8Code .h = 4 ∧ reg8Code .l = 5 ∧
      reg8Code .a = 7 ∧ (∀ r, reg8Of (reg8Code r) = some r) ∧ reg8Of 6 = none) ∧
    (pairCode .bc = 0 ∧ pairCode .de = 1 ∧ pairCode .hl = 2 ∧ pairCode .sp = 3 ∧ (∀ p, pairOf (pairCode p) = p)) ∧
    (pair2Code .bc = 0 ∧ pair2Code .de = 1 ∧ pair2Code .hl = 2 ∧ pair2Code .af = 3 ∧
      (∀ p, pair2Of (pair2Code p) = p)) ∧
    (getPair .bc s = getBc s ∧ getPair .de s = getDe s ∧ getPair .hl s = getHl s ∧ getPair .sp s = s.sp) ∧
    (getPair2 .bc s = getBc s ∧ getPair2 .de s = getDe s ∧ getPair2 .hl s = getHl s ∧ getPair2 .af s = getAf s) ∧
    (setPair .bc v s = setBc v s ∧ setPair .de v s = setDe v s ∧ setPair .hl v s = setHl v s) ∧
    (setPair2 .bc v s = setBc v s ∧ setPair2 .de v s = setDe v s ∧ setPair2 .hl v s = setHl v s ∧
      setPair2 .af v s = setAf v s) ∧
    (getIdx .ix s = s.ix ∧ getIdx .iy s = s.iy) ∧
    (∀ p, getPair p (setPair p v s) = v) ∧ (∀ p, getPair2 p (setPair2 p v s) = v) ∧
    (∀ i, getIdx i (setIdx i v s) = v) ∧
    ((setPair .bc v s).b.toNat = v.toNat / 256 ∧ (setPair .bc v s).c.toNat = v.toNat % 256) ∧
    ((setPair .de v s).d.toNat = v.toNat / 256 ∧ (setPair .de v s).e.toNat = v.toNat % 256) ∧
    ((setPair .hl v s).h.toNat = v.toNat / 256 ∧ (setPair .hl v s).l.toNat = v.toNat % 256) ∧
    ((setPair2 .af v s).a.toNat = v.toNat / 256 ∧ (setPair2 .af v s).f.toNat = v.toNat % 256) ∧
    (getPair .bc s).toNat = 256 * s.b.toNat + s.c.toNat ∧ (getPair .de s).toNat = 256 * s.d.toNat + s.e.toNat ∧
    (getPair .hl s).toNat = 256 * s.h.toNat + s.l.toNat ∧ (getPair2 .af s).toNat = 256 * s.a.toNat + s.f.toNat ∧
    setPair .sp v s = { s with sp := v } ∧
    setPair .bc v s = { s with b := (setPair .bc v s).b, c := (setPair .bc v s).c } ∧
    setPair .de v s = { s with d := (setPair .de v s).d, e := (setPair .de v s).e } ∧
    setPair .hl v s = { s with h := (setPair .hl v s).h, l := (setPair .hl v s).l } ∧
    setPair2 .af v s = { s with a := (setPair2 .af v s).a, f := (setPair2 .af v s).f } ∧
    setIdx .ix v s = { s with ix := v } ∧ setIdx .iy v s = { s with iy := v }

/-- ram: the write makes later reads of that address return v and leaves every other address alone. ignore: no
effect. fault: ContractViolation, nothing written. A read of a ROM address gives the memory contents, of an
unmapped one UNMAPPED_READ_VALUE. At reset every address is ram and that value is 0xEE. Formalises: 20_memory.md
R63, R64. What in it is the spec's own supply or the model's choice, not the source's words: the kinds of
address and what a refused write leaves (D4, D13, log entry 16); their form in the platform (log entry 2), and
the record of accesses (log entry 6). -/
def Obligations.MemoryKeepsWhatEachKindSays : Prop :=
  (∀ (s : State) (addr : Word) (v : Byte),
    (memKind s addr = .ram → ∃ t, memWrite addr v s = .next t ∧
      (∀ x, peek t x = if x = addr then v else peek s x) ∧
      t = { s with mem := t.mem, history := .memWrite addr v :: s.history }) ∧
    (∀ rom, memKind s addr = .ignore rom →
      memWrite addr v s = .next { s with history := .memWrite addr v :: s.history }) ∧
    (∀ rom, memKind s addr = .fault rom →
      memWrite addr v s = .fault (.contractViolation
        { s with fault := .contractViolation s.pc .unmappedWrite addr v }))) ∧
  (∀ (s : State) (addr : Word),
    (memKind s addr = .ram ∨ memKind s addr = .ignore true ∨ memKind s addr = .fault true →
      peek s addr = memGet s.mem addr.toNat) ∧
    (memKind s addr = .ignore false ∨ memKind s addr = .fault false → peek s addr = s.platform.unmappedRead)) ∧
  (∀ addr, memKind State.reset addr = .ram) ∧ State.reset.platform.unmappedRead = 0xEE

/-- If both addresses accept, the two bytes are written in that order, SP becomes SP - 2 mod 65536 and nothing
else changes. If the first is refused nothing is written and SP stays; if the second is refused the high byte
stands and SP stays. Formalises: 45_stack_exchange.md R290. What in it is the spec's own supply or the model's
choice, not the source's words: what a refused write leaves (D4, D13, log entry 16, carried as log entries 5 and
6 have it). -/
def Obligations.PushWritesHighThenLowThenLowersSp : Prop :=
  ∀ (v : Word) (s : State), pushes v s (push16 v s) fun t => t.pc = s.pc

/-- Pop16 returns the word whose low byte is at SP and high byte at SP + 1, read in that order, and adds 2 to
SP, changing nothing else. If SP - 1 and SP - 2 are ram, then pushing v answers a state in which a pop returns v
and restores SP. Formalises: R291. -/
def Obligations.PopUndoesPush : Prop :=
  ∀ (v : Word) (s : State),
    pop16 s = (wordAt s s.sp, { s with sp := s.sp + 2, history := readWord s s.sp }) ∧
    (memKind s (s.sp - 1) = .ram → memKind s (s.sp - 2) = .ram →
      ∃ t, push16 v s = .next t ∧ t.sp = s.sp - 2 ∧ (pop16 t).1 = v ∧ (pop16 t).2.sp = s.sp)

/-- EA_IDX(d) is the index register plus the two's complement value of d, mod 65536; EA_REL(e) is the address
after the two-byte instruction plus the value of e, mod 65536. A memory operand (HL) has the address HL (R161),
(IX+d) the address EA_IDX(d). Formalises: R163, R164. -/
def Obligations.EffectiveAddressesWrap : Prop :=
  ∀ (s : State) (d : Byte),
    (∀ i, ((eaIdx i d s).toNat : Int) = ((getIdx i s).toNat + d.toInt) % 65536) ∧
    ((eaRel d s).toNat : Int) = (s.pc.toNat + 2 + d.toInt) % 65536 ∧
    locAddr .atHl s = getHl s ∧ (∀ i, locAddr (.atIdx i d) s = eaIdx i d s)

/-- NZ, Z, NC, C, PO, PE, P, M have the codes 0 to 7 and hold iff Z, C, PV or S is 0 or 1 as the table says; JR
cc is well-formed exactly for the codes below 4. Formalises: 44_control_transfer.md section 1 (R270). What in it
is the spec's own supply or the model's choice, not the source's words: the numbering 0 to 7 (G2, log entry 14);
that JR takes the first four only (D29, log entry 16). -/
def Obligations.ConditionsTestTheirFlag : Prop :=
  ∀ s : State,
    (condHolds .nz s = true ↔ flagZ s.f = false) ∧ (condHolds .z s = true ↔ flagZ s.f = true) ∧
    (condHolds .nc s = true ↔ flagC s.f = false) ∧ (condHolds .c s = true ↔ flagC s.f = true) ∧
    (condHolds .po s = true ↔ flagPV s.f = false) ∧ (condHolds .pe s = true ↔ flagPV s.f = true) ∧
    (condHolds .p s = true ↔ flagS s.f = false) ∧ (condHolds .m s = true ↔ flagS s.f = true) ∧
    (∀ n : Fin 8, condCode (condOf n.val) = n.val) ∧ condOf 0 = .nz ∧ condOf 1 = .z ∧ condOf 2 = .nc ∧
    condOf 3 = .c ∧ condOf 4 = .po ∧ condOf 5 = .pe ∧ condOf 6 = .p ∧ condOf 7 = .m ∧
    (∀ cc e, (Instr.jrCcE cc e).wellFormed = true ↔ condCode cc < 4)

/-- LD r,r' (01ddd sss) copies the source register and LD r,n (00ddd110, n) the immediate into the destination;
every other register, all flags, memory and the history are unchanged; pc advances by 1 and 2. Formalises:
42_load.md R180, R181. What in it is the spec's own supply or the model's choice, not the source's words: the
opcode numbers, but for 0x4D (G1, log entry 14). -/
def Obligations.LoadRegisterFromRegisterOrImmediate : Prop :=
  ∀ (dst src : Reg8) (n : Byte) (s : State),
    encode (.ldRR dst src) = [BitVec.ofNat 8 (0x40 + 8 * reg8Code dst + reg8Code src)] ∧
    encode (.ldRN dst n) = [BitVec.ofNat 8 (0x06 + 8 * reg8Code dst), n] ∧
    (∃ t, exec (.ldRR dst src) s = .next t ∧ r8Becomes dst (getR8 src s) s t ∧ sameFlags s t ∧
      t.pc = s.pc + 1 ∧ t.history = s.history) ∧
    (∃ t, exec (.ldRN dst n) s = .next t ∧ r8Becomes dst n s t ∧ sameFlags s t ∧
      t.pc = s.pc + 2 ∧ t.history = s.history)

/-- Each loads its register with the byte at the address, formed before the register is written, by exactly one
read; nothing else changes but pc, which advances by the length. Formalises: 42_load.md R182, R185, R188, R189,
R192. What in it is the spec's own supply or the model's choice, not the source's words: the opcode numbers (G1,
G9, G10, log entry 14). -/
def Obligations.LoadByteFromMemory : Prop :=
  ∀ (r : Reg8) (i : Idx) (d : Byte) (nn : Word) (s : State),
    encode (.ldRMHl r) = [BitVec.ofNat 8 (0x46 + 8 * reg8Code r)] ∧
    encode (.ldRMIdx i r d) = [idxPrefix i, BitVec.ofNat 8 (0x46 + 8 * reg8Code r), d] ∧
    encode .ldAMBc = [0x0A] ∧ encode .ldAMDe = [0x1A] ∧ encode (.ldAMNn nn) = [0x3A, loByte nn, hiByte nn] ∧
    loadsByte r (getHl s) 1 s (exec (.ldRMHl r) s) ∧
    loadsByte r (eaIdx i d s) 3 s (exec (.ldRMIdx i r d) s) ∧
    loadsByte .a (getBc s) 1 s (exec .ldAMBc s) ∧
    loadsByte .a (getDe s) 1 s (exec .ldAMDe s) ∧
    loadsByte .a nn 3 s (exec (.ldAMNn nn) s)

/-- LD (HL),r; LD (HL),n; LD (IX+d),r; LD (IX+d),n; LD (BC),A; LD (DE),A; LD (nn),A write one byte at the
address. If the platform accepts it, only that address can read differently, no register or flag changes, pc
advances by the length. If it refuses, ContractViolation, and nothing has changed. Formalises: 42_load.md R183,
R184, R186, R187, R190, R191, R193. What in it is the spec's own supply or the model's choice, not the source's
words: the opcode numbers (G1, G9, G10, log entry 14); what a refused write leaves (D4, D13, log entry 16,
carried as log entries 5 and 6 have it). -/
def Obligations.StoreByteToMemory : Prop :=
  ∀ (r : Reg8) (i : Idx) (d n : Byte) (nn : Word) (s : State),
    encode (.ldMHlR r) = [BitVec.ofNat 8 (0x70 + reg8Code r)] ∧ encode (.ldMHlN n) = [0x36, n] ∧
    encode (.ldMIdxR i d r) = [idxPrefix i, BitVec.ofNat 8 (0x70 + reg8Code r), d] ∧
    encode (.ldMIdxN i d n) = [idxPrefix i, 0x36, d, n] ∧ encode .ldMBcA = [0x02] ∧ encode .ldMDeA = [0x12] ∧
    encode (.ldMNnA nn) = [0x32, loByte nn, hiByte nn] ∧
    storesByte (getHl s) (getR8 r s) s.history s (exec (.ldMHlR r) s) (fun t => sameFlags s t ∧ t.pc = s.pc + 1) ∧
    storesByte (getHl s) n s.history s (exec (.ldMHlN n) s) (fun t => sameFlags s t ∧ t.pc = s.pc + 2) ∧
    storesByte (eaIdx i d s) (getR8 r s) s.history s (exec (.ldMIdxR i d r) s)
      (fun t => sameFlags s t ∧ t.pc = s.pc + 3) ∧
    storesByte (eaIdx i d s) n s.history s (exec (.ldMIdxN i d n) s) (fun t => sameFlags s t ∧ t.pc = s.pc + 4) ∧
    storesByte (getBc s) s.a s.history s (exec .ldMBcA s) (fun t => sameFlags s t ∧ t.pc = s.pc + 1) ∧
    storesByte (getDe s) s.a s.history s (exec .ldMDeA s) (fun t => sameFlags s t ∧ t.pc = s.pc + 1) ∧
    storesByte nn s.a s.history s (exec (.ldMNnA nn) s) (fun t => sameFlags s t ∧ t.pc = s.pc + 3)

/-- The pair, the index register or SP takes the immediate, HL or the index register; the other pairs and
registers, the flags, memory and the history are unchanged; pc advances by 3, 4, 1 and 2. Formalises: 42_load.md
R194, R195, R202, R203. What in it is the spec's own supply or the model's choice, not the source's words: the
opcode numbers (G1, G9, log entry 14); which SP loads there are (D33, log entry 16). -/
def Obligations.LoadWordRegisters : Prop :=
  ∀ (p : Pair) (i : Idx) (nn : Word) (s : State),
    encode (.ldDdNn p nn) = [BitVec.ofNat 8 (0x01 + 16 * pairCode p), loByte nn, hiByte nn] ∧
    encode (.ldIdxNn i nn) = [idxPrefix i, 0x21, loByte nn, hiByte nn] ∧
    encode .ldSpHl = [0xF9] ∧ encode (.ldSpIdx i) = [idxPrefix i, 0xF9] ∧
    (∃ t, exec (.ldDdNn p nn) s = .next t ∧ pairBecomes p nn s t ∧ sameFlags s t ∧ t.pc = s.pc + 3 ∧
      t.history = s.history) ∧
    (∃ t, exec (.ldIdxNn i nn) s = .next t ∧ idxBecomes i nn s t ∧ sameFlags s t ∧ t.pc = s.pc + 4 ∧
      t.history = s.history) ∧
    exec .ldSpHl s = .next { s with sp := mkWord s.h s.l, pc := s.pc + 1 } ∧
    exec (.ldSpIdx i) s = .next { s with sp := getIdx i s, pc := s.pc + 2 }

/-- The register takes the word whose low byte is at nn and high byte at nn + 1 mod 65536, read in that order;
nothing else changes but pc. Formalises: 42_load.md R196, R198, R200. What in it is the spec's own supply or the
model's choice, not the source's words: the opcode numbers (G1, G9, log entry 14); the low byte read first (D11,
log entry 16); the low byte at the lower address (G14, log entry 14). -/
def Obligations.LoadWordFromMemory : Prop :=
  ∀ (p : Pair) (i : Idx) (nn : Word) (s : State),
    encode (.ldHlMNn nn) = [0x2A, loByte nn, hiByte nn] ∧
    encode (.ldDdMNn p nn) = [0xED, BitVec.ofNat 8 (0x4B + 16 * pairCode p), loByte nn, hiByte nn] ∧
    encode (.ldIdxMNn i nn) = [idxPrefix i, 0x2A, loByte nn, hiByte nn] ∧
    (∃ t, exec (.ldHlMNn nn) s = .next t ∧ pairBecomes .hl (wordAt s nn) s t ∧ sameFlags s t ∧ t.pc = s.pc + 3 ∧
      t.history = readWord s nn) ∧
    (∃ t, exec (.ldDdMNn p nn) s = .next t ∧ pairBecomes p (wordAt s nn) s t ∧ sameFlags s t ∧ t.pc = s.pc + 4 ∧
      t.history = readWord s nn) ∧
    (∃ t, exec (.ldIdxMNn i nn) s = .next t ∧ idxBecomes i (wordAt s nn) s t ∧ sameFlags s t ∧ t.pc = s.pc + 4 ∧
      t.history = readWord s nn)

/-- The low byte is written at nn and then the high byte at nn + 1 mod 65536; if both are accepted nothing else
changes but pc; if the second is refused the first stands and pc stays; if the first is refused nothing has
changed. Formalises: 42_load.md R197, R199, R201. What in it is the spec's own supply or the model's choice, not
the source's words: the opcode numbers (G1, G9, log entry 14); the low byte written first (D11, log entry 16);
the low byte at the lower address (G14, log entry 14); what a refused write leaves (D4, D13, log entry 16,
carried as log entries 5 and 6 have it). -/
def Obligations.StoreWordToMemory : Prop :=
  ∀ (p : Pair) (i : Idx) (nn : Word) (s : State),
    encode (.ldMNnHl nn) = [0x22, loByte nn, hiByte nn] ∧
    encode (.ldMNnDd nn p) = [0xED, BitVec.ofNat 8 (0x43 + 16 * pairCode p), loByte nn, hiByte nn] ∧
    encode (.ldMNnIdx nn i) = [idxPrefix i, 0x22, loByte nn, hiByte nn] ∧
    (storesTwo nn s.l (nn + 1) s.h s.history s (exec (.ldMNnHl nn) s) fun t =>
      t = { s with mem := t.mem, pc := s.pc + 3, history := t.history }) ∧
    (storesTwo nn (loByte (getPair p s)) (nn + 1) (hiByte (getPair p s)) s.history s (exec (.ldMNnDd nn p) s) fun t =>
      t = { s with mem := t.mem, pc := s.pc + 4, history := t.history }) ∧
    (storesTwo nn (loByte (getIdx i s)) (nn + 1) (hiByte (getIdx i s)) s.history s (exec (.ldMNnIdx nn i) s) fun t =>
      t = { s with mem := t.mem, pc := s.pc + 4, history := t.history })

/-- For every form of the source operand, A becomes the result and F the flags of add8 of A, the operand and
carry-in 0 or F.C; only A, F, pc and the history, by the one read of a memory form, change. Formalises:
43_arithmetic_logic.md R220, R221. What in it is the spec's own supply or the model's choice, not the source's
words: the opcode numbers (G1, G8, G9, G10, log entry 14). -/
def Obligations.AddToAccumulator : Prop :=
  ∀ (x : Src) (s : State),
    accDone .add x (add8 s.a (srcByte x s) false).1 (add8 s.a (srcByte x s) false).2 s ∧
    accDone .adc x (add8 s.a (srcByte x s) (flagC s.f)).1 (add8 s.a (srcByte x s) (flagC s.f)).2 s

/-- For every form of the source operand, SUB and SBC give A the result and F the flags of sub8 with borrow-in 0
and F.C; CP gives F the flags SUB would and leaves A; only A, F, pc and the history change. Formalises:
43_arithmetic_logic.md R222, R223, R224. What in it is the spec's own supply or the model's choice, not the
source's words: the opcode numbers, but for 0x90 (G1, G8, G9, G10, log entry 14). -/
def Obligations.SubtractFromAndCompareWithAccumulator : Prop :=
  ∀ (x : Src) (s : State),
    accDone .sub x (sub8 s.a (srcByte x s) false).1 (sub8 s.a (srcByte x s) false).2 s ∧
    accDone .sbc x (sub8 s.a (srcByte x s) (flagC s.f)).1 (sub8 s.a (srcByte x s) (flagC s.f)).2 s ∧
    accDone .cp x s.a (sub8 s.a (srcByte x s) false).2 s

/-- For every form of the source operand, A becomes the bitwise result and F the flags of logic8; only A, F, pc
and the history change. Formalises: 43_arithmetic_logic.md R239, R240, R241. What in it is the spec's own supply
or the model's choice, not the source's words: the opcode numbers (G1, G8, G9, G10, log entry 14). -/
def Obligations.LogicOnAccumulator : Prop :=
  ∀ (x : Src) (s : State),
    accDone .and x (logic8 .and s.a (srcByte x s)).1 (logic8 .and s.a (srcByte x s)).2 s ∧
    accDone .or x (logic8 .or s.a (srcByte x s)).1 (logic8 .or s.a (srcByte x s)).2 s ∧
    accDone .xor x (logic8 .xor s.a (srcByte x s)).1 (logic8 .xor s.a (srcByte x s)).2 s

/-- The register form changes that register and F; the memory forms read the byte once and write the result back
to the same address, then write F; if the write is refused F and pc keep their values. Formalises:
43_arithmetic_logic.md R225, R226, R227, R228, R229, R230. What in it is the spec's own supply or the model's
choice, not the source's words: the opcode numbers (G1, G9, G10, log entry 14); one read and one write, and the
flags of the memory forms (D24, D26, log entry 16); what a refused write leaves (D4, D13, log entry 16, carried
as log entries 5 and 6 have it). -/
def Obligations.IncrementAndDecrementByte : Prop :=
  (∀ (r : Reg8) (s : State),
    encode (.incR r) = [BitVec.ofNat 8 (0x04 + 8 * reg8Code r)] ∧
    encode (.decR r) = [BitVec.ofNat 8 (0x05 + 8 * reg8Code r)] ∧
    (∃ t, exec (.incR r) s = .next t ∧ r8Becomes r (inc8 (getR8 r s) s.f).1 s t ∧
      flagsWritten (inc8 (getR8 r s) s.f).2 s t ∧ t.pc = s.pc + 1 ∧ t.history = s.history) ∧
    (∃ t, exec (.decR r) s = .next t ∧ r8Becomes r (dec8 (getR8 r s) s.f).1 s t ∧
      flagsWritten (dec8 (getR8 r s) s.f).2 s t ∧ t.pc = s.pc + 1 ∧ t.history = s.history)) ∧
  (∀ s : State,
    encode .incMHl = [0x34] ∧ encode .decMHl = [0x35] ∧
    storesByte (getHl s) (inc8 (peek s (getHl s)) s.f).1 (locHistory .atHl s) s (exec .incMHl s)
      (fun t => flagsWritten (inc8 (peek s (getHl s)) s.f).2 s t ∧ t.pc = s.pc + 1) ∧
    storesByte (getHl s) (dec8 (peek s (getHl s)) s.f).1 (locHistory .atHl s) s (exec .decMHl s)
      (fun t => flagsWritten (dec8 (peek s (getHl s)) s.f).2 s t ∧ t.pc = s.pc + 1)) ∧
  (∀ (i : Idx) (d : Byte) (s : State),
    encode (.incMIdx i d) = [idxPrefix i, 0x34, d] ∧ encode (.decMIdx i d) = [idxPrefix i, 0x35, d] ∧
    storesByte (eaIdx i d s) (inc8 (peek s (eaIdx i d s)) s.f).1 (locHistory (.atIdx i d) s) s (exec (.incMIdx i d) s)
      (fun t => flagsWritten (inc8 (peek s (eaIdx i d s)) s.f).2 s t ∧ t.pc = s.pc + 3) ∧
    storesByte (eaIdx i d s) (dec8 (peek s (eaIdx i d s)) s.f).1 (locHistory (.atIdx i d) s) s (exec (.decMIdx i d) s)
      (fun t => flagsWritten (dec8 (peek s (eaIdx i d s)) s.f).2 s t ∧ t.pc = s.pc + 3))

/-- HL or the index register takes the result and F the flags of add16, adc16 or sbc16 with the pair, the codes
0 to 3 of ADD IX,pp naming BC, DE, the index register itself and SP; the other registers, memory and the history
are unchanged. Formalises: 43_arithmetic_logic.md R231, R232, R233, R234. What in it is the spec's own supply or
the model's choice, not the source's words: the opcode numbers, but for 0x09 (G1, G9, log entry 14); pair code 2
of ADD IX,pp (D28, log entry 16). -/
def Obligations.SixteenBitArithmetic : Prop :=
  ∀ (p : Pair) (q : PairX) (i : Idx) (s : State),
    encode (.addHlSs p) = [BitVec.ofNat 8 (0x09 + 16 * pairCode p)] ∧
    encode (.addIdxPp i q) = [idxPrefix i, BitVec.ofNat 8 (0x09 + 16 * pairXCode q)] ∧
    encode (.adcHlSs p) = [0xED, BitVec.ofNat 8 (0x4A + 16 * pairCode p)] ∧
    encode (.sbcHlSs p) = [0xED, BitVec.ofNat 8 (0x42 + 16 * pairCode p)] ∧
    getPairX i .idx s = getIdx i s ∧ getPairX i .bc s = getBc s ∧ getPairX i .de s = getDe s ∧ getPairX i .sp s = s.sp ∧
    pairXCode .bc = 0 ∧ pairXCode .de = 1 ∧ pairXCode .idx = 2 ∧ pairXCode .sp = 3 ∧ (∀ q, pairXOf (pairXCode q) = q) ∧
    (∃ t, exec (.addHlSs p) s = .next t ∧ pairBecomes .hl (add16 (getHl s) (getPair p s) s.f).1 s t ∧
      flagsWritten (add16 (getHl s) (getPair p s) s.f).2 s t ∧ t.pc = s.pc + 1 ∧ t.history = s.history) ∧
    (∃ t, exec (.addIdxPp i q) s = .next t ∧ idxBecomes i (add16 (getIdx i s) (getPairX i q s) s.f).1 s t ∧
      flagsWritten (add16 (getIdx i s) (getPairX i q s) s.f).2 s t ∧ t.pc = s.pc + 2 ∧ t.history = s.history) ∧
    (∃ t, exec (.adcHlSs p) s = .next t ∧ pairBecomes .hl (adc16 (getHl s) (getPair p s) (flagC s.f)).1 s t ∧
      flagsWritten (adc16 (getHl s) (getPair p s) (flagC s.f)).2 s t ∧ t.pc = s.pc + 2 ∧ t.history = s.history) ∧
    (∃ t, exec (.sbcHlSs p) s = .next t ∧ pairBecomes .hl (sbc16 (getHl s) (getPair p s) (flagC s.f)).1 s t ∧
      flagsWritten (sbc16 (getHl s) (getPair p s) (flagC s.f)).2 s t ∧ t.pc = s.pc + 2 ∧ t.history = s.history)

/-- The pair or index register goes up or down by 1 mod 65536; no flag, no other register, no memory byte
changes; pc advances by 1 or 2. Formalises: 43_arithmetic_logic.md R235, R236, R237, R238. What in it is the
spec's own supply or the model's choice, not the source's words: the opcode numbers (G1, G9, log entry 14). -/
def Obligations.IncrementAndDecrementWord : Prop :=
  ∀ (p : Pair) (i : Idx) (s : State),
    encode (.incSs p) = [BitVec.ofNat 8 (0x03 + 16 * pairCode p)] ∧
    encode (.decSs p) = [BitVec.ofNat 8 (0x0B + 16 * pairCode p)] ∧
    encode (.incIdx i) = [idxPrefix i, 0x23] ∧ encode (.decIdx i) = [idxPrefix i, 0x2B] ∧
    (∃ t, exec (.incSs p) s = .next t ∧ pairBecomes p (BitVec.ofNat 16 ((getPair p s).toNat + 1)) s t ∧
      sameFlags s t ∧ t.pc = s.pc + 1 ∧ t.history = s.history) ∧
    (∃ t, exec (.decSs p) s = .next t ∧ pairBecomes p (BitVec.ofNat 16 ((getPair p s).toNat + 65535)) s t ∧
      sameFlags s t ∧ t.pc = s.pc + 1 ∧ t.history = s.history) ∧
    (∃ t, exec (.incIdx i) s = .next t ∧ idxBecomes i (BitVec.ofNat 16 ((getIdx i s).toNat + 1)) s t ∧
      sameFlags s t ∧ t.pc = s.pc + 2 ∧ t.history = s.history) ∧
    (∃ t, exec (.decIdx i) s = .next t ∧ idxBecomes i (BitVec.ofNat 16 ((getIdx i s).toNat + 65535)) s t ∧
      sameFlags s t ∧ t.pc = s.pc + 2 ∧ t.history = s.history)

/-- A becomes A xor 0xFF; F gets H = 1, N = 1, bits 5 and 3 of the new A and keeps S, Z, PV and C; nothing else
changes but pc. Formalises: 43_arithmetic_logic.md R242. What in it is the spec's own supply or the model's
choice, not the source's words: the flags of CPL (D23, log entry 16) and G18 (log entry 14); the value of bits 5
and 3 (log entry 13). -/
def Obligations.ComplementAccumulator : Prop :=
  ∀ (s : State) (f : Byte),
    flagS f = flagS s.f → flagZ f = flagZ s.f → flagPV f = flagPV s.f → flagC f = flagC s.f →
    flagH f = true → flagN f = true →
    flag5 f = (s.a ^^^ 0xFF).getLsbD 5 → flag3 f = (s.a ^^^ 0xFF).getLsbD 3 →
    encode .cpl = [0x2F] ∧ ∃ t, exec .cpl s = .next t ∧ t.a = s.a ^^^ 0xFF ∧ flagsWritten f s t ∧
      t = { s with a := t.a, f := t.f, draws := t.draws, pc := s.pc + 1 }

/-- JP nn, JP cc,nn, JP (HL), JP (IX), JR e, JR cc,e change nothing but pc: to nn, HL, the index register, or pc
+ 2 plus the signed displacement when taken, and to the following instruction when the condition fails. DJNZ
lowers B by 1 mod 256 whether or not it branches and branches iff the new B is not 0, with no flag changed.
Formalises: 44_control_transfer.md R271, R272, R273, R274, R275, R276, R277. What in it is the spec's own supply
or the model's choice, not the source's words: the opcode numbers (G1, G2, G9, log entry 14); no flag of DJNZ,
and the four conditions of JR (D27, D29, log entry 16); what exec makes of a JR with PO, PE, P or M, which no
word encodes (log entry 17). -/
def Obligations.JumpsAndBranches : Prop :=
  ∀ (cc : Cond) (nn : Word) (i : Idx) (e : Byte) (s : State),
    encode (.jpNn nn) = [0xC3, loByte nn, hiByte nn] ∧
    encode (.jpCcNn cc nn) = [BitVec.ofNat 8 (0xC2 + 8 * condCode cc), loByte nn, hiByte nn] ∧
    encode .jpHl = [0xE9] ∧ encode (.jpIdx i) = [idxPrefix i, 0xE9] ∧ encode (.jrE e) = [0x18, e] ∧
    (condCode cc < 4 → encode (.jrCcE cc e) = [BitVec.ofNat 8 (0x20 + 8 * condCode cc), e]) ∧
    encode (.djnzE e) = [0x10, e] ∧
    exec (.jpNn nn) s = .next { s with pc := nn } ∧
    exec (.jpCcNn cc nn) s = .next { s with pc := if condHolds cc s then nn else s.pc + 3 } ∧
    exec .jpHl s = .next { s with pc := mkWord s.h s.l } ∧
    exec (.jpIdx i) s = .next { s with pc := getIdx i s } ∧
    exec (.jrE e) s = .next { s with pc := s.pc + 2 + sext16 e } ∧
    exec (.jrCcE cc e) s = .next { s with pc := if condHolds cc s then s.pc + 2 + sext16 e else s.pc + 2 } ∧
    exec (.djnzE e) s = .next
      { s with b := s.b - 1, pc := if s.b = 1 then s.pc + 2 else s.pc + 2 + sext16 e }

/-- CALL nn and a taken CALL cc,nn push pc + 3 and go to nn; RST pushes pc + 1 and goes to 8t; nothing else
changes, with the partial effects of a refused push and pc then unchanged; an untaken CALL cc,nn changes only
pc. Formalises: 44_control_transfer.md R278, R279, R282. What in it is the spec's own supply or the model's
choice, not the source's words: the opcode numbers, but for 0xCD (G1, G2, log entry 14); the RST targets (G3,
log entry 14); the address RST pushes (D25, log entry 16); what a refused write leaves (D4, D13, log entry 16,
carried as log entries 5 and 6 have it). -/
def Obligations.CallsAndRestarts : Prop :=
  ∀ (cc : Cond) (nn : Word) (p : Fin 8) (s : State),
    encode (.callNn nn) = [0xCD, loByte nn, hiByte nn] ∧
    encode (.callCcNn cc nn) = [BitVec.ofNat 8 (0xC4 + 8 * condCode cc), loByte nn, hiByte nn] ∧
    encode (.rstP p) = [BitVec.ofNat 8 (0xC7 + 8 * p.val)] ∧
    pushes (s.pc + 3) s (exec (.callNn nn) s) (fun t => t.pc = nn) ∧
    (condHolds cc s = true → pushes (s.pc + 3) s (exec (.callCcNn cc nn) s) (fun t => t.pc = nn)) ∧
    (condHolds cc s = false → exec (.callCcNn cc nn) s = .next { s with pc := s.pc + 3 }) ∧
    pushes (s.pc + 1) s (exec (.rstP p) s) (fun t => t.pc.toNat = 8 * p.val)

/-- RET and a taken RET cc read the word at SP, low byte first, put it into pc and raise SP by 2; nothing else
changes; an untaken RET cc reads nothing and goes to pc + 1. Formalises: 44_control_transfer.md R280, R281. What
in it is the spec's own supply or the model's choice, not the source's words: the opcode numbers, but for 0xC9
(G1, G2, log entry 14). -/
def Obligations.Returns : Prop :=
  ∀ (cc : Cond) (s : State),
    encode .ret = [0xC9] ∧ encode (.retCc cc) = [BitVec.ofNat 8 (0xC0 + 8 * condCode cc)] ∧
    exec .ret s = .next { s with pc := wordAt s s.sp, sp := s.sp + 2, history := readWord s s.sp } ∧
    (condHolds cc s = true → exec (.retCc cc) s = .next
      { s with pc := wordAt s s.sp, sp := s.sp + 2, history := readWord s s.sp }) ∧
    (condHolds cc s = false → exec (.retCc cc) s = .next { s with pc := s.pc + 1 })

/-- PUSH pushes the pair (A high, F low for AF) or index register with the effects of Push16, then pc advances.
POP loads the pair or index register with the popped word, all of F for AF under either policy, raises SP by 2
and changes nothing else. Formalises: 45_stack_exchange.md R292, R293, R294, R295. What in it is the spec's own
supply or the model's choice, not the source's words: the opcode numbers (G1, G9, log entry 14); what a refused
write leaves (D4, D13, log entry 16, carried as log entries 5 and 6 have it). -/
def Obligations.PushAndPop : Prop :=
  ∀ (p : Pair2) (i : Idx) (s : State),
    encode (.pushQq p) = [BitVec.ofNat 8 (0xC5 + 16 * pair2Code p)] ∧
    encode (.popQq p) = [BitVec.ofNat 8 (0xC1 + 16 * pair2Code p)] ∧
    encode (.pushIdx i) = [idxPrefix i, 0xE5] ∧ encode (.popIdx i) = [idxPrefix i, 0xE1] ∧
    pushes (getPair2 p s) s (exec (.pushQq p) s) (fun t => t.pc = s.pc + 1) ∧
    pushes (getIdx i s) s (exec (.pushIdx i) s) (fun t => t.pc = s.pc + 2) ∧
    (∃ t, exec (.popQq p) s = .next t ∧ getPair2 p t = wordAt s s.sp ∧
      (∀ q, q ≠ p → getPair2 q t = getPair2 q s) ∧
      t = { s with
        a := t.a, f := t.f, b := t.b, c := t.c, d := t.d, e := t.e, h := t.h, l := t.l
        sp := s.sp + 2, pc := s.pc + 1, history := readWord s s.sp }) ∧
    (∃ t, exec (.popIdx i) s = .next t ∧ getIdx i t = wordAt s s.sp ∧ (∀ j, j ≠ i → getIdx j t = getIdx j s) ∧
      t = { s with ix := t.ix, iy := t.iy, sp := s.sp + 2, pc := s.pc + 2, history := readWord s s.sp })

/-- EX DE,HL swaps DE and HL; EX AF,AF' swaps A and F with A' and F'; EXX swaps B, C, D, E, H, L with their
shadows; every other register, memory and the history stay; pc advances by 1. Formalises: 45_stack_exchange.md
R296, R297, R298. What in it is the spec's own supply or the model's choice, not the source's words: the opcode
numbers (G1, log entry 14). -/
def Obligations.RegisterExchanges : Prop :=
  ∀ s : State,
    encode .exDeHl = [0xEB] ∧ encode .exAfAf = [0x08] ∧ encode .exx = [0xD9] ∧
    exec .exDeHl s = .next { s with d := s.h, e := s.l, h := s.d, l := s.e, pc := s.pc + 1 } ∧
    exec .exAfAf s = .next { s with a := s.a', f := s.f', a' := s.a, f' := s.f, pc := s.pc + 1 } ∧
    exec .exx s = .next
      { s with
        b := s.b', c := s.c', d := s.d', e := s.e', h := s.h', l := s.l'
        b' := s.b, c' := s.c, d' := s.d, e' := s.e, h' := s.h, l' := s.l, pc := s.pc + 1 }

/-- Both bytes at SP are read, then the register's low byte is written at SP and its high byte at SP + 1, then
the register takes the word read; SP does not change; if a write is refused the register and pc keep their
values. Formalises: 45_stack_exchange.md R299, R300. What in it is the spec's own supply or the model's choice,
not the source's words: the opcode numbers (G1, G9, log entry 14); the low byte at the lower address (G14, log
entry 14); that EX (SP),IX is admitted, and the order of the accesses (D2, D12, log entry 16); what a refused
write leaves (D4, D13, log entry 16, carried as log entries 5 and 6 have it). -/
def Obligations.ExchangeWithTheStackTop : Prop :=
  ∀ (i : Idx) (s : State),
    encode .exMSpHl = [0xE3] ∧ encode (.exMSpIdx i) = [idxPrefix i, 0xE3] ∧
    (storesTwo s.sp s.l (s.sp + 1) s.h (readWord s s.sp) s (exec .exMSpHl s) fun t =>
      t.h = peek s (s.sp + 1) ∧ t.l = peek s s.sp ∧
      t = { s with h := t.h, l := t.l, mem := t.mem, pc := s.pc + 1, history := t.history }) ∧
    (storesTwo s.sp (loByte (getIdx i s)) (s.sp + 1) (hiByte (getIdx i s)) (readWord s s.sp) s
      (exec (.exMSpIdx i) s) fun t =>
      getIdx i t = wordAt s s.sp ∧ (∀ j, j ≠ i → getIdx j t = getIdx j s) ∧
      t = { s with ix := t.ix, iy := t.iy, mem := t.mem, pc := s.pc + 2, history := t.history })

/-- A takes the byte of the rotate rlc, rrc, rl, rr with the old carry, F the accumulator flags with the bit
shifted out; nothing else changes but pc. Formalises: 46_rotate_shift.md R310, R311, R312, R313. What in it is
the spec's own supply or the model's choice, not the source's words: the opcode numbers (G1, log entry 14); the
bit movements (G4, log entry 14). -/
def Obligations.AccumulatorRotates : Prop :=
  ∀ s : State,
    encode .rlca = [0x07] ∧ (∃ t, exec .rlca s = .next t ∧ t.a = (shift .rlc s.a (flagC s.f)).1 ∧
      flagsWritten (rotAFlags (shift .rlc s.a (flagC s.f)).2 s.f) s t ∧
      t = { s with a := t.a, f := t.f, draws := t.draws, pc := s.pc + 1 }) ∧
    encode .rrca = [0x0F] ∧ (∃ t, exec .rrca s = .next t ∧ t.a = (shift .rrc s.a (flagC s.f)).1 ∧
      flagsWritten (rotAFlags (shift .rrc s.a (flagC s.f)).2 s.f) s t ∧
      t = { s with a := t.a, f := t.f, draws := t.draws, pc := s.pc + 1 }) ∧
    encode .rla = [0x17] ∧ (∃ t, exec .rla s = .next t ∧ t.a = (shift .rl s.a (flagC s.f)).1 ∧
      flagsWritten (rotAFlags (shift .rl s.a (flagC s.f)).2 s.f) s t ∧
      t = { s with a := t.a, f := t.f, draws := t.draws, pc := s.pc + 1 }) ∧
    encode .rra = [0x1F] ∧ (∃ t, exec .rra s = .next t ∧ t.a = (shift .rr s.a (flagC s.f)).1 ∧
      flagsWritten (rotAFlags (shift .rr s.a (flagC s.f)).2 s.f) s t ∧
      t = { s with a := t.a, f := t.f, draws := t.draws, pc := s.pc + 1 })

/-- shift has the eight rows of R314. The register form writes the shifted byte to the register; the memory
forms read the byte once and write the result back to the same address, then write F; F takes the flags of the
result and the bit shifted out; if the write is refused F and pc keep their values; nothing else changes.
Formalises: 46_rotate_shift.md R314, R315, R316, R317, R318, R319, R320, R321, R322. What in it is the spec's
own supply or the model's choice, not the source's words: the opcode numbers (G1, G8, G9, log entry 14); the bit
movements (G4, log entry 14); one read and one write, also of an unchanged byte (D24, log entry 16); what a
refused write leaves (D4, D13, log entry 16, carried as log entries 5 and 6 have it). -/
def Obligations.RotateAndShiftRegisterOrMemory : Prop :=
  (∀ (v : Byte) (cin : Bool),
    shift .rlc v cin = ((v <<< 1) ||| (v >>> 7), v.getLsbD 7) ∧
    shift .rrc v cin = ((v <<< 7) ||| (v >>> 1), v.getLsbD 0) ∧
    shift .rl v cin = ((v <<< 1) ||| (BitVec.ofBool cin).setWidth 8, v.getLsbD 7) ∧
    shift .rr v cin = (((BitVec.ofBool cin).setWidth 8 <<< 7) ||| (v >>> 1), v.getLsbD 0) ∧
    shift .sla v cin = (v <<< 1, v.getLsbD 7) ∧
    shift .sra v cin = ((v &&& 0x80) ||| (v >>> 1), v.getLsbD 0) ∧
    shift .sll v cin = ((v <<< 1) ||| 1, v.getLsbD 7) ∧
    shift .srl v cin = (v >>> 1, v.getLsbD 0)) ∧
  (∀ (op : ShiftOp) (r : Reg8) (s : State),
    encode (shiftReg op r) = [0xCB, BitVec.ofNat 8 (8 * shiftCode op + reg8Code r)] ∧
    ∃ t, exec (shiftReg op r) s = .next t ∧
      r8Becomes r (shift op (getR8 r s) (flagC s.f)).1 s t ∧
      flagsWritten (rotFlags (shift op (getR8 r s) (flagC s.f)).1 (shift op (getR8 r s) (flagC s.f)).2) s t ∧
      t.pc = s.pc + 2 ∧ t.history = s.history) ∧
  (∀ (op : ShiftOp) (x : Loc) (s : State),
    encode (shiftMem op x) = cbBytes (8 * shiftCode op + 6) x ∧
    storesByte (locAddr x s) (shift op (peek s (locAddr x s)) (flagC s.f)).1 (locHistory x s) s
      (exec (shiftMem op x) s) fun t =>
      flagsWritten (rotFlags (shift op (peek s (locAddr x s)) (flagC s.f)).1
        (shift op (peek s (locAddr x s)) (flagC s.f)).2) s t ∧
      t.pc = s.pc + BitVec.ofNat 16 (cbLen x))

/-- F takes the flags of bit_flags of the register or memory byte; a memory form makes one read; no register, no
memory byte changes; pc advances by the length. Formalises: 47_bit.md R330, R331, R332. What in it is the spec's
own supply or the model's choice, not the source's words: the opcode numbers, but for CB 41 (G1, G8, G9, log
entry 14); S and bits 5 and 3 (D7, log entry 16). -/
def Obligations.BitTests : Prop :=
  (∀ (b : Fin 8) (r : Reg8) (s : State),
    encode (.bitBR b r) = [0xCB, BitVec.ofNat 8 (0x40 + 8 * b.val + reg8Code r)] ∧
    ∃ t, exec (.bitBR b r) s = .next t ∧ flagsWritten (bitFlags b (getR8 r s) s.f) s t ∧
      t = { s with f := t.f, draws := t.draws, pc := s.pc + 2 }) ∧
  (∀ (b : Fin 8) (x : Loc) (s : State),
    encode (bitMem b x) = cbBytes (0x46 + 8 * b.val) x ∧
    ∃ t, exec (bitMem b x) s = .next t ∧ flagsWritten (bitFlags b (peek s (locAddr x s)) s.f) s t ∧
      t = { s with
        f := t.f, draws := t.draws, pc := s.pc + BitVec.ofNat 16 (cbLen x), history := locHistory x s })

/-- The location takes the byte with bit b set or cleared and every other bit as it was; the memory forms read
once and write once to the same address, also when the bit had that value; no flag, no other register, no other
memory byte changes. Formalises: 47_bit.md R333, R334, R335, R336, R337, R338. What in it is the spec's own
supply or the model's choice, not the source's words: the opcode numbers (G1, G8, G9, log entry 14); one read
and one write, also of an unchanged byte (D24, log entry 16); what a refused write leaves (D4, D13, log entry
16, carried as log entries 5 and 6 have it). -/
def Obligations.SetAndResetBits : Prop :=
  ∀ (b : Fin 8) (v1 v0 : Byte),
    (∀ (r : Reg8) (s : State),
      encode (.setBR b r) = [0xCB, BitVec.ofNat 8 (0xC0 + 8 * b.val + reg8Code r)] ∧
      encode (.resBR b r) = [0xCB, BitVec.ofNat 8 (0x80 + 8 * b.val + reg8Code r)] ∧
      ((∀ k : Fin 8, v1.getLsbD k.val = (decide (k = b) || (getR8 r s).getLsbD k.val)) →
        ∃ t, exec (.setBR b r) s = .next t ∧ r8Becomes r v1 s t ∧ sameFlags s t ∧ t.pc = s.pc + 2 ∧
          t.history = s.history) ∧
      ((∀ k : Fin 8, v0.getLsbD k.val = (!decide (k = b) && (getR8 r s).getLsbD k.val)) →
        ∃ t, exec (.resBR b r) s = .next t ∧ r8Becomes r v0 s t ∧ sameFlags s t ∧ t.pc = s.pc + 2 ∧
          t.history = s.history)) ∧
    (∀ (x : Loc) (s : State),
      encode (setMem b x) = cbBytes (0xC6 + 8 * b.val) x ∧ encode (resMem b x) = cbBytes (0x86 + 8 * b.val) x ∧
      ((∀ k : Fin 8, v1.getLsbD k.val = (decide (k = b) || (peek s (locAddr x s)).getLsbD k.val)) →
        storesByte (locAddr x s) v1 (locHistory x s) s (exec (setMem b x) s)
          (fun t => sameFlags s t ∧ t.pc = s.pc + BitVec.ofNat 16 (cbLen x))) ∧
      ((∀ k : Fin 8, v0.getLsbD k.val = (!decide (k = b) && (peek s (locAddr x s)).getLsbD k.val)) →
        storesByte (locAddr x s) v0 (locHistory x s) s (exec (resMem b x) s)
          (fun t => sameFlags s t ∧ t.pc = s.pc + BitVec.ofNat 16 (cbLen x))))

/-- LDI and LDD copy the byte at HL to DE and move HL and DE up or down by 1; CPI and CPD compare A with the
byte at HL and move HL; BC goes down by 1; F takes the block flags of the new BC; a refused write to DE leaves
everything but the read; nothing else changes. Formalises: 48_block.md R350, R351, R354, R355. What in it is the
spec's own supply or the model's choice, not the source's words: the opcode numbers (G1, log entry 14); the
flags (D8, D9, log entry 16); what a refused write leaves (D4, D13, log entry 16, carried as log entries 5 and 6
have it). -/
def Obligations.SingleBlockTransfersAndCompares : Prop :=
  ∀ (up : Bool) (s : State),
    encode .ldi = [0xED, 0xA0] ∧ encode .ldd = [0xED, 0xA8] ∧ encode .cpi = [0xED, 0xA1] ∧ encode .cpd = [0xED, 0xA9] ∧
    (accepts s (getDe s) = true → ∃ t, exec (if up then .ldi else .ldd) s = .next t ∧
      (∀ x, peek t x = readsAfter s (getDe s) (peek s (getHl s)) (peek s) x) ∧
      getHl t = moved up (getHl s) 1 ∧ getDe t = moved up (getDe s) 1 ∧ getBc t = getBc s - 1 ∧
      flagsWritten (ldblockFlags (getBc s - 1) s.f) s t ∧ t.pc = s.pc + 2 ∧
      t.history = .memWrite (getDe s) (peek s (getHl s)) :: .memRead (getHl s) (peek s (getHl s)) :: s.history ∧
      blockFrame s t) ∧
    (accepts s (getDe s) = false → exec (if up then .ldi else .ldd) s = .fault (.contractViolation
      { s with
        history := .memRead (getHl s) (peek s (getHl s)) :: s.history
        fault := .contractViolation s.pc .unmappedWrite (getDe s) (peek s (getHl s)) })) ∧
    (∃ t, exec (if up then .cpi else .cpd) s = .next t ∧
      getHl t = moved up (getHl s) 1 ∧ getDe t = getDe s ∧ getBc t = getBc s - 1 ∧ t.mem = s.mem ∧
      flagsWritten (cpblockFlags s.a (peek s (getHl s)) (getBc s - 1) s.f) s t ∧ t.pc = s.pc + 2 ∧
      t.history = .memRead (getHl s) (peek s (getHl s)) :: s.history ∧ blockFrame s t)

/-- If every destination address of the group accepts, one step makes n iterations, n being BC or 65536: memory
reads as after copying byte by byte in that order, each read seeing the writes before it, HL and DE have moved
by n, BC is 0, F takes the transfer flags with PV = 0, pc advances by 2 once, the history gains, iteration by
iteration, the read at the source and the write of that byte at the destination, nothing else changes. If the
write of iteration k is the first to be refused, ContractViolation records that address and the byte it would
have copied: the k iterations before it stand in memory, HL, DE, BC and the history, which ends with the read of
that byte, and F and pc keep their values. Formalises: 48_block.md R352, R353, R358, 20_memory.md R72, R81,
60_exceptions.md R402. What in it is the spec's own supply or the model's choice, not the source's words: the
opcode numbers (G1, log entry 14); the do-while, so 65536 iterations for BC = 0 (D10, log entry 16) and G19 (log
entry 14); the flags (D8, log entry 16); what a refused write leaves (D4, D13, log entry 16, carried as log
entries 5 and 6 have it). -/
def Obligations.RepeatedTransferRunsToItsEnd : Prop :=
  ∀ (up : Bool) (s : State),
    encode .ldir = [0xED, 0xB0] ∧ encode .lddr = [0xED, 0xB8] ∧
    ((∀ k, k < groupSize s → accepts s (moved up (getDe s) k) = true) →
      ∃ t, exec (if up then .ldir else .lddr) s = .next t ∧
        (∀ x, peek t x = copied s up (groupSize s) (getHl s) (getDe s) (peek s) x) ∧
        getHl t = moved up (getHl s) (groupSize s) ∧ getDe t = moved up (getDe s) (groupSize s) ∧ getBc t = 0 ∧
        flagsWritten (ldblockFlags 0 s.f) s t ∧ t.pc = s.pc + 2 ∧
        t.history = transferHistory s up (groupSize s) ∧ blockFrame s t) ∧
    (∀ k, k < groupSize s → (∀ j, j < k → accepts s (moved up (getDe s) j) = true) →
      accepts s (moved up (getDe s) k) = false →
      ∃ u, exec (if up then .ldir else .lddr) s = .fault (.contractViolation u) ∧
        (∀ x, peek u x = copied s up k (getHl s) (getDe s) (peek s) x) ∧
        getHl u = moved up (getHl s) k ∧ getDe u = moved up (getDe s) k ∧ getBc u = getBc s - BitVec.ofNat 16 k ∧
        u.f = s.f ∧ u.draws = s.draws ∧ u.pc = s.pc ∧
        u.fault = .contractViolation s.pc .unmappedWrite (moved up (getDe s) k) (copiedByte s up k) ∧
        u.history = .memRead (moved up (getHl s) k) (copiedByte s up k) :: transferHistory s up k ∧
        blockFrame { s with fault := u.fault } u)

/-- There is a number n of comparisons, at least 1 and at most BC (65536 for BC = 0), such that no earlier byte
equals A and either n is the most possible or the last byte equals A; HL has moved by n, BC lowered by n, F
takes the compare flags of the last byte and the final BC, pc advances by 2 once, memory and A and DE stay; the
history gains the n reads, at HL, then one up or down, and so on in order; Z = 0 with PV = 1 does not occur.
Formalises: 48_block.md R356, R357, R358, 20_memory.md R72, R81. What in it is the spec's own supply or the
model's choice, not the source's words: the opcode numbers (G1, log entry 14); the do-while, so at least one
comparison, and 65536 for BC = 0 (D10, log entry 16) and G19 (log entry 14); the flags (D9, log entry 16); the
record of the reads (log entry 6). -/
def Obligations.RepeatedCompareStopsAtTheFirstMatch : Prop :=
  ∀ (up : Bool) (s : State),
    encode .cpir = [0xED, 0xB1] ∧ encode .cpdr = [0xED, 0xB9] ∧
    ∃ n, 1 ≤ n ∧ n ≤ groupSize s ∧ (∀ k, k + 1 < n → peek s (moved up (getHl s) k) ≠ s.a) ∧
      (n = groupSize s ∨ peek s (moved up (getHl s) (n - 1)) = s.a) ∧
      ∃ t, exec (if up then .cpir else .cpdr) s = .next t ∧
        getHl t = moved up (getHl s) n ∧ getDe t = getDe s ∧ getBc t = getBc s - BitVec.ofNat 16 n ∧ t.mem = s.mem ∧
        flagsWritten (cpblockFlags s.a (peek s (moved up (getHl s) (n - 1))) (getBc s - BitVec.ofNat 16 n) s.f) s t ∧
        ¬(flagZ t.f = false ∧ flagPV t.f = true) ∧ t.pc = s.pc + 2 ∧
        t.history = compareHistory s up n ∧ blockFrame s t

/-- IN: A takes some byte, the answer of the I/O collaborator (a free value, log entry 3), by one read of port
n; OUT: one write event (n, A), or ContractViolation on a port the platform rejects; no flag and nothing else
changes but pc. Formalises: 49_io_interrupt_nop.md R370, R371. What in it is the spec's own supply or the
model's choice, not the source's words: the opcode numbers (G1, log entry 14); the oracle, and that no flag
changes (D14, D20, log entry 16) and G18 (log entry 14); what a refused write leaves (D4, log entry 16); the
rejected ports, and the port zero-extended as target (log entry 7). -/
def Obligations.InputAndOutput : Prop :=
  ∀ (n : Byte) (s : State),
    encode (.inAMN n) = [0xDB, n] ∧ encode (.outMNA n) = [0xD3, n] ∧
    (∃ v : Byte, exec (.inAMN n) s = .next
      { s with a := v, pc := s.pc + 2, history := .ioRead n v :: s.history }) ∧
    (n ∉ s.platform.rejectedPorts → exec (.outMNA n) s = .next
      { s with pc := s.pc + 2, history := .ioWrite n s.a :: s.history }) ∧
    (n ∈ s.platform.rejectedPorts → exec (.outMNA n) s = .fault (.contractViolation
      { s with fault := .contractViolation s.pc .ioWrite (n.setWidth 16) s.a }))

/-- DI clears IFF, EI sets it within its own step, IM n sets the mode, NOP does nothing; pc advances by 1 (2 for
IM); no flag, no other state changes. Formalises: 49_io_interrupt_nop.md R372, R373, R374, R375. What in it is
the spec's own supply or the model's choice, not the source's words: the opcode numbers (G1, G5, log entry 14);
EI at once, and one encoding for each IM (D16, D34, log entry 16). -/
def Obligations.InterruptControlAndNop : Prop :=
  ∀ s : State,
    encode .di = [0xF3] ∧ encode .ei = [0xFB] ∧ encode .im0 = [0xED, 0x46] ∧ encode .im1 = [0xED, 0x56] ∧
    encode .im2 = [0xED, 0x5E] ∧ encode .nop = [0x00] ∧
    exec .di s = .next { s with iff := false, pc := s.pc + 1 } ∧
    exec .ei s = .next { s with iff := true, pc := s.pc + 1 } ∧
    exec .im0 s = .next { s with im := .mode0, pc := s.pc + 2 } ∧
    exec .im1 s = .next { s with im := .mode1, pc := s.pc + 2 } ∧
    exec .im2 s = .next { s with im := .mode2, pc := s.pc + 2 } ∧
    exec .nop s = .next { s with pc := s.pc + 1 }

/-- From every state whose memory is in canonical form and whose fault status is none, a step that answers a
next state answers one of which both hold again. Formalises: 10_state.md R41, 20_memory.md R60, R63. What in it
is the spec's own supply or the model's choice, not the source's words: the fault status (D3, log entry 16); the
canonical form, which lists no byte that holds what an unlisted address holds (log entry 1). -/
def Obligations.StepKeepsMemoryCanonicalAndNoFault : Prop :=
  ∀ s t : State, running s → step s = .next t → running t

/-- The memory of the state right after reset is in canonical form (nothing is listed, the model's choice of log
entry 1) and its fault status is none. Formalises: 10_state.md section 8 (R38). What in it is the spec's own
supply or the model's choice, not the source's words: the fault status (D3, log entry 16). -/
def Obligations.ResetStateIsRunning : Prop :=
  running State.reset

/-- For every instruction and every state of a platform with no fault address and no rejecting port, exec
answers a next state, with the platform, and the fault status, as they were. Formalises: 60_exceptions.md
section 1 (R402, R403, R404). What in it is the spec's own supply or the model's choice, not the source's words:
that nothing but a refused write faults (D4, D13, log entry 16); the platform as data that no step changes (log
entry 2), its rejected ports (log entry 7), and what exec makes of a JR with PO, PE, P or M (log entry 17). -/
def Obligations.EveryInstructionCompletesWhereNothingIsRejected : Prop :=
  ∀ (i : Instr) (s : State), neverRejects s.platform = true →
    ∃ t, exec i s = .next t ∧ t.platform = s.platform ∧ t.fault = s.fault

/-- If exec of an instruction faults, the instruction is one of those R403 lists, the fault is
ContractViolation, and in the state it leaves pc, F, IFF, IM, the shadow set and the platform are those before
and the status records that pc. exec refuses nothing. Formalises: 60_exceptions.md section 1 (R402, R403). What
in it is the spec's own supply or the model's choice, not the source's words: what a ContractViolation leaves
(D4, log entry 16), carried as log entry 5 has it; the platform (log entry 2) and its rejected ports (log entry
7). -/
def Obligations.OnlyWritesCanViolate : Prop :=
  ∀ (i : Instr) (s : State),
    (∀ r, exec i s = .fault r → canViolate i = true ∧ ∃ u, r = .contractViolation u ∧
      u.pc = s.pc ∧ u.f = s.f ∧ u.iff = s.iff ∧ u.im = s.im ∧ u.platform = s.platform ∧
      u.a' = s.a' ∧ u.f' = s.f' ∧ u.b' = s.b' ∧ u.c' = s.c' ∧ u.d' = s.d' ∧ u.e' = s.e' ∧ u.h' = s.h' ∧ u.l' = s.l' ∧
      ∃ kind target v, u.fault = .contractViolation s.pc kind target v) ∧
    (∀ r, exec i s ≠ .refused r)

/-- Whatever the platform's policy for bits 5 and 3, an instruction that R31 does not list answers a state whose
F, and whose count of draws, are those before. Formalises: 10_state.md section 4 (R31), 40_flag_unit.md R146.
What in it is the spec's own supply or the model's choice, not the source's words: that IN A,(n), OUT (n),A and
DJNZ leave F alone (D20, D27, log entry 16); the policy draw and the count of draws (D5, log entries 16 and 4).
-/
def Obligations.OnlyListedInstructionsChangeTheFlags : Prop :=
  ∀ (i : Instr) (s t : State), writesFlags i = false → exec i s = .next t → t.f = s.f ∧ t.draws = s.draws

/-- In every next state the platform and the fault status are as before; IFF is as before unless the instruction
is DI or EI; IM unless it is an IM; A' and F' unless it is EX AF,AF'; the other six shadow registers unless it
is EXX. Formalises: 10_state.md sections 2, 5 and 9 (R22, R33, R34, R40, R41), 00_scope.md R7. What in it is the
spec's own supply or the model's choice, not the source's words: the platform, which no step changes, as data in
State (log entry 2); the fault status (D3, log entry 16). -/
def Obligations.ControlAndShadowStateHaveFewWriters : Prop :=
  ∀ (i : Instr) (s t : State), exec i s = .next t →
    t.platform = s.platform ∧ t.fault = s.fault ∧
    (i ≠ .di → i ≠ .ei → t.iff = s.iff) ∧
    (i ≠ .im0 → i ≠ .im1 → i ≠ .im2 → t.im = s.im) ∧
    (i ≠ .exAfAf → t.a' = s.a' ∧ t.f' = s.f') ∧
    (i ≠ .exx → t.b' = s.b' ∧ t.c' = s.c' ∧ t.d' = s.d' ∧ t.e' = s.e' ∧ t.h' = s.h' ∧ t.l' = s.l')

/-- For every byte f, the flags S, Z, b5, H, b3, PV, N, C read from it have the masks 0x80, 0x40, 0x20, 0x10,
0x08, 0x04, 0x02, 0x01, and a byte made of eight flags gives each of them back. Formalises: 10_state.md section
4 (R30). -/
def Obligations.FlagBitsHaveTheirPlaces : Prop :=
  (∀ f : Byte, f.toNat = 0x80 * (flagS f).toNat + 0x40 * (flagZ f).toNat + 0x20 * (flag5 f).toNat +
    0x10 * (flagH f).toNat + 0x08 * (flag3 f).toNat + 0x04 * (flagPV f).toNat + 0x02 * (flagN f).toNat +
    (flagC f).toNat) ∧
  (∀ sign zero b5 h b3 pv n c : Bool, ∀ f : Byte, packFlags sign zero b5 h b3 pv n c = f →
    flagS f = sign ∧ flagZ f = zero ∧ flag5 f = b5 ∧ flagH f = h ∧ flag3 f = b3 ∧ flagPV f = pv ∧ flagN f = n ∧
    flagC f = c)
end

