-- ==== Sys2Proof/Laws/Memory.lean ====
section
/-! SUPPORT. The laws of memory: read after write, and that every operation keeps the canonical form. -/

namespace Sys2Proof.Machine

theorem memGet_memErase (m : List Host.Cell) (x y : Nat) :
    memGet (memErase m x) y = if y = x then memDefault else memGet m y := by
  induction m with
  | nil => simp [memErase, memGet]
  | cons c m ih =>
    obtain ⟨k, w⟩ := c
    by_cases hk : k = x
    · subst hk
      simp only [memErase, if_pos, ih, memGet]
      by_cases hy : y = k
      · simp [hy]
      · simp [hy, Ne.symm hy]
    · simp only [memErase, if_neg hk, memGet, ih]
      by_cases hy : k = y
      · subst hy; simp [hk]
      · simp [hy]

theorem memGet_memInsert_other (m : List Host.Cell) (x y : Nat) (v : Byte) (h : y ≠ x) :
    memGet (memInsert m x v) y = memGet m y := by
  induction m with
  | nil => simp [memInsert, memGet, Ne.symm h]
  | cons c m ih =>
    obtain ⟨k, w⟩ := c
    unfold memInsert
    split
    · simp [memGet, Ne.symm h]
    · simp [memGet, ih]

theorem memGet_memInsert_erased (m : List Host.Cell) (x : Nat) (v : Byte) :
    memGet (memInsert (memErase m x) x v) x = v := by
  induction m with
  | nil => simp [memErase, memInsert, memGet]
  | cons c m ih =>
    obtain ⟨k, w⟩ := c
    by_cases hk : k = x
    · simpa [memErase, hk] using ih
    · simp only [memErase, if_neg hk, memInsert]
      split
      · simp [memGet]
      · simp [memGet, hk, ih]

/-- Read after write: the byte written at its address, every other address as before. -/
theorem memGet_memPut (m : List Host.Cell) (x y : Nat) (v : Byte) :
    memGet (memPut m x v) y = if y = x then v else memGet m y := by
  unfold memPut
  split
  · next h => subst h; exact memGet_memErase m x y
  · by_cases hy : y = x
    · subst hy; simp [memGet_memInsert_erased]
    · simp [memGet_memInsert_other _ _ _ _ hy, memGet_memErase, hy]

theorem memWfFrom_mono {low high : Nat} (h : low ≤ high) {m : List Host.Cell} (hm : memWfFrom high m = true) :
    memWfFrom low m = true := by
  cases m with
  | nil => rfl
  | cons c m =>
    obtain ⟨k, w⟩ := c
    simp only [memWfFrom, Bool.and_eq_true, decide_eq_true_eq] at hm ⊢
    exact ⟨⟨⟨by omega, hm.1.1.2⟩, hm.1.2⟩, hm.2⟩

theorem memErase_wfFrom (m : List Host.Cell) (x low : Nat) (hm : memWfFrom low m = true) :
    memWfFrom low (memErase m x) = true := by
  induction m generalizing low with
  | nil => rfl
  | cons c m ih =>
    obtain ⟨k, w⟩ := c
    simp only [memWfFrom, Bool.and_eq_true, decide_eq_true_eq] at hm
    unfold memErase
    split
    · exact ih _ (memWfFrom_mono (by omega) hm.2)
    · simp only [memWfFrom, Bool.and_eq_true, decide_eq_true_eq]
      exact ⟨hm.1, ih _ hm.2⟩

theorem memInsert_wfFrom (m : List Host.Cell) (x low : Nat) (v : Byte) (hx : x < 65536) (hlow : low ≤ x)
    (hv : v ≠ memDefault) (hm : memWfFrom low m = true) :
    memWfFrom low (memInsert (memErase m x) x v) = true := by
  induction m generalizing low with
  | nil => simp [memErase, memInsert, memWfFrom, hx, hlow, hv]
  | cons c m ih =>
    obtain ⟨k, w⟩ := c
    simp only [memWfFrom, Bool.and_eq_true, decide_eq_true_eq] at hm
    by_cases hk : k = x
    · simpa [memErase, hk] using ih low hlow (memWfFrom_mono (by omega) hm.2)
    · simp only [memErase, if_neg hk, memInsert]
      split
      · simp only [memWfFrom, Bool.and_eq_true, decide_eq_true_eq]
        exact ⟨⟨⟨hlow, hx⟩, hv⟩, ⟨⟨by omega, hm.1.1.2⟩, hm.1.2⟩, memErase_wfFrom _ _ _ hm.2⟩
      · simp only [memWfFrom, Bool.and_eq_true, decide_eq_true_eq]
        exact ⟨hm.1, ih _ (by omega) hm.2⟩

/-- A write at an address of the machine keeps the canonical form. -/
theorem memPut_wf (m : List Host.Cell) (x : Nat) (v : Byte) (hx : x < 65536) (hm : memWf m = true) :
    memWf (memPut m x v) = true := by
  unfold memPut
  split
  · exact memErase_wfFrom m x 0 hm
  · next hv => exact memInsert_wfFrom m x 0 v hx (Nat.zero_le _) hv hm

theorem reset_mem_wf : memWf State.reset.mem = true := rfl

/-- Two memories in canonical form that read alike are the same list. -/
theorem memWfFrom_ext (m n : List Host.Cell) (low : Nat) (hm : memWfFrom low m = true)
    (hn : memWfFrom low n = true) (h : ∀ x, memGet m x = memGet n x) : m = n := by
  have below : ∀ (q : List Host.Cell) (l x : Nat), memWfFrom l q = true → x < l → memGet q x = memDefault := by
    intro q
    induction q with
    | nil => intros; rfl
    | cons c q ih =>
      intro l x hq hx
      obtain ⟨k, w⟩ := c
      simp only [memWfFrom, Bool.and_eq_true, decide_eq_true_eq] at hq
      rw [memGet, if_neg (by omega)]
      exact ih (k + 1) x hq.2 (by omega)
  induction m generalizing n low with
  | nil =>
    cases n with
    | nil => rfl
    | cons c n =>
      obtain ⟨k, w⟩ := c
      simp only [memWfFrom, Bool.and_eq_true, decide_eq_true_eq] at hn
      have := h k
      simp only [memGet, if_pos] at this
      exact absurd this.symm hn.1.2
  | cons c m ih =>
    obtain ⟨k, w⟩ := c
    simp only [memWfFrom, Bool.and_eq_true, decide_eq_true_eq] at hm
    cases n with
    | nil =>
      have := h k
      simp only [memGet, if_pos] at this
      exact absurd this hm.1.2
    | cons c' n =>
      obtain ⟨k', w'⟩ := c'
      simp only [memWfFrom, Bool.and_eq_true, decide_eq_true_eq] at hn
      have hk : k = k' := by
        rcases Nat.lt_trichotomy k k' with hlt | heq | hgt
        · have := h k
          rw [memGet, if_pos rfl, memGet, if_neg (by omega), below n (k' + 1) k hn.2 (by omega)] at this
          exact absurd this hm.1.2
        · exact heq
        · have := h k'
          rw [memGet, if_neg (by omega), memGet, if_pos rfl, below m (k + 1) k' hm.2 (by omega)] at this
          exact absurd this.symm hn.1.2
      subst hk
      have hw : w = w' := by
        have := h k
        rwa [memGet, if_pos rfl, memGet, if_pos rfl] at this
      subst hw
      rw [ih n (k + 1) hm.2 hn.2]
      intro x
      by_cases hx : k = x
      · subst hx
        rw [below m (k + 1) k hm.2 (by omega), below n (k + 1) k hn.2 (by omega)]
      · have := h x
        rwa [memGet, if_neg hx, memGet, if_neg hx] at this

end Sys2Proof.Machine
end

