-- ==== Sys2Proof/Laws/State.lean ====
section
/-! SUPPORT. What each update of the state does to each field. -/

namespace Sys2Proof.Machine

variable (s : State)

@[simp] theorem advance_a (n : Nat) : (advance n s).a = s.a := rfl
@[simp] theorem advance_f (n : Nat) : (advance n s).f = s.f := rfl
@[simp] theorem advance_b (n : Nat) : (advance n s).b = s.b := rfl
@[simp] theorem advance_c (n : Nat) : (advance n s).c = s.c := rfl
@[simp] theorem advance_d (n : Nat) : (advance n s).d = s.d := rfl
@[simp] theorem advance_e (n : Nat) : (advance n s).e = s.e := rfl
@[simp] theorem advance_h (n : Nat) : (advance n s).h = s.h := rfl
@[simp] theorem advance_l (n : Nat) : (advance n s).l = s.l := rfl
@[simp] theorem advance_a' (n : Nat) : (advance n s).a' = s.a' := rfl
@[simp] theorem advance_f' (n : Nat) : (advance n s).f' = s.f' := rfl
@[simp] theorem advance_b' (n : Nat) : (advance n s).b' = s.b' := rfl
@[simp] theorem advance_c' (n : Nat) : (advance n s).c' = s.c' := rfl
@[simp] theorem advance_d' (n : Nat) : (advance n s).d' = s.d' := rfl
@[simp] theorem advance_e' (n : Nat) : (advance n s).e' = s.e' := rfl
@[simp] theorem advance_h' (n : Nat) : (advance n s).h' = s.h' := rfl
@[simp] theorem advance_l' (n : Nat) : (advance n s).l' = s.l' := rfl
@[simp] theorem advance_ix (n : Nat) : (advance n s).ix = s.ix := rfl
@[simp] theorem advance_iy (n : Nat) : (advance n s).iy = s.iy := rfl
@[simp] theorem advance_sp (n : Nat) : (advance n s).sp = s.sp := rfl
@[simp] theorem advance_pc (n : Nat) : (advance n s).pc = nextPc n s := rfl
@[simp] theorem advance_iff (n : Nat) : (advance n s).iff = s.iff := rfl
@[simp] theorem advance_im (n : Nat) : (advance n s).im = s.im := rfl
@[simp] theorem advance_fault (n : Nat) : (advance n s).fault = s.fault := rfl
@[simp] theorem advance_mem (n : Nat) : (advance n s).mem = s.mem := rfl
@[simp] theorem advance_platform (n : Nat) : (advance n s).platform = s.platform := rfl
@[simp] theorem advance_history (n : Nat) : (advance n s).history = s.history := rfl
@[simp] theorem advance_draws (n : Nat) : (advance n s).draws = s.draws := rfl

@[simp] theorem setPc_a (v : Word) : (setPc v s).a = s.a := rfl
@[simp] theorem setPc_f (v : Word) : (setPc v s).f = s.f := rfl
@[simp] theorem setPc_b (v : Word) : (setPc v s).b = s.b := rfl
@[simp] theorem setPc_c (v : Word) : (setPc v s).c = s.c := rfl
@[simp] theorem setPc_d (v : Word) : (setPc v s).d = s.d := rfl
@[simp] theorem setPc_e (v : Word) : (setPc v s).e = s.e := rfl
@[simp] theorem setPc_h (v : Word) : (setPc v s).h = s.h := rfl
@[simp] theorem setPc_l (v : Word) : (setPc v s).l = s.l := rfl
@[simp] theorem setPc_a' (v : Word) : (setPc v s).a' = s.a' := rfl
@[simp] theorem setPc_f' (v : Word) : (setPc v s).f' = s.f' := rfl
@[simp] theorem setPc_b' (v : Word) : (setPc v s).b' = s.b' := rfl
@[simp] theorem setPc_c' (v : Word) : (setPc v s).c' = s.c' := rfl
@[simp] theorem setPc_d' (v : Word) : (setPc v s).d' = s.d' := rfl
@[simp] theorem setPc_e' (v : Word) : (setPc v s).e' = s.e' := rfl
@[simp] theorem setPc_h' (v : Word) : (setPc v s).h' = s.h' := rfl
@[simp] theorem setPc_l' (v : Word) : (setPc v s).l' = s.l' := rfl
@[simp] theorem setPc_ix (v : Word) : (setPc v s).ix = s.ix := rfl
@[simp] theorem setPc_iy (v : Word) : (setPc v s).iy = s.iy := rfl
@[simp] theorem setPc_sp (v : Word) : (setPc v s).sp = s.sp := rfl
@[simp] theorem setPc_pc (v : Word) : (setPc v s).pc = v := rfl
@[simp] theorem setPc_iff (v : Word) : (setPc v s).iff = s.iff := rfl
@[simp] theorem setPc_im (v : Word) : (setPc v s).im = s.im := rfl
@[simp] theorem setPc_fault (v : Word) : (setPc v s).fault = s.fault := rfl
@[simp] theorem setPc_mem (v : Word) : (setPc v s).mem = s.mem := rfl
@[simp] theorem setPc_platform (v : Word) : (setPc v s).platform = s.platform := rfl
@[simp] theorem setPc_history (v : Word) : (setPc v s).history = s.history := rfl
@[simp] theorem setPc_draws (v : Word) : (setPc v s).draws = s.draws := rfl

@[simp] theorem record_a (x : Access) : (record x s).a = s.a := rfl
@[simp] theorem record_f (x : Access) : (record x s).f = s.f := rfl
@[simp] theorem record_b (x : Access) : (record x s).b = s.b := rfl
@[simp] theorem record_c (x : Access) : (record x s).c = s.c := rfl
@[simp] theorem record_d (x : Access) : (record x s).d = s.d := rfl
@[simp] theorem record_e (x : Access) : (record x s).e = s.e := rfl
@[simp] theorem record_h (x : Access) : (record x s).h = s.h := rfl
@[simp] theorem record_l (x : Access) : (record x s).l = s.l := rfl
@[simp] theorem record_a' (x : Access) : (record x s).a' = s.a' := rfl
@[simp] theorem record_f' (x : Access) : (record x s).f' = s.f' := rfl
@[simp] theorem record_b' (x : Access) : (record x s).b' = s.b' := rfl
@[simp] theorem record_c' (x : Access) : (record x s).c' = s.c' := rfl
@[simp] theorem record_d' (x : Access) : (record x s).d' = s.d' := rfl
@[simp] theorem record_e' (x : Access) : (record x s).e' = s.e' := rfl
@[simp] theorem record_h' (x : Access) : (record x s).h' = s.h' := rfl
@[simp] theorem record_l' (x : Access) : (record x s).l' = s.l' := rfl
@[simp] theorem record_ix (x : Access) : (record x s).ix = s.ix := rfl
@[simp] theorem record_iy (x : Access) : (record x s).iy = s.iy := rfl
@[simp] theorem record_sp (x : Access) : (record x s).sp = s.sp := rfl
@[simp] theorem record_pc (x : Access) : (record x s).pc = s.pc := rfl
@[simp] theorem record_iff (x : Access) : (record x s).iff = s.iff := rfl
@[simp] theorem record_im (x : Access) : (record x s).im = s.im := rfl
@[simp] theorem record_fault (x : Access) : (record x s).fault = s.fault := rfl
@[simp] theorem record_mem (x : Access) : (record x s).mem = s.mem := rfl
@[simp] theorem record_platform (x : Access) : (record x s).platform = s.platform := rfl
@[simp] theorem record_history (x : Access) : (record x s).history = x :: s.history := rfl
@[simp] theorem record_draws (x : Access) : (record x s).draws = s.draws := rfl

@[simp] theorem setSp_a (v : Word) : (setSp v s).a = s.a := rfl
@[simp] theorem setSp_f (v : Word) : (setSp v s).f = s.f := rfl
@[simp] theorem setSp_b (v : Word) : (setSp v s).b = s.b := rfl
@[simp] theorem setSp_c (v : Word) : (setSp v s).c = s.c := rfl
@[simp] theorem setSp_d (v : Word) : (setSp v s).d = s.d := rfl
@[simp] theorem setSp_e (v : Word) : (setSp v s).e = s.e := rfl
@[simp] theorem setSp_h (v : Word) : (setSp v s).h = s.h := rfl
@[simp] theorem setSp_l (v : Word) : (setSp v s).l = s.l := rfl
@[simp] theorem setSp_a' (v : Word) : (setSp v s).a' = s.a' := rfl
@[simp] theorem setSp_f' (v : Word) : (setSp v s).f' = s.f' := rfl
@[simp] theorem setSp_b' (v : Word) : (setSp v s).b' = s.b' := rfl
@[simp] theorem setSp_c' (v : Word) : (setSp v s).c' = s.c' := rfl
@[simp] theorem setSp_d' (v : Word) : (setSp v s).d' = s.d' := rfl
@[simp] theorem setSp_e' (v : Word) : (setSp v s).e' = s.e' := rfl
@[simp] theorem setSp_h' (v : Word) : (setSp v s).h' = s.h' := rfl
@[simp] theorem setSp_l' (v : Word) : (setSp v s).l' = s.l' := rfl
@[simp] theorem setSp_ix (v : Word) : (setSp v s).ix = s.ix := rfl
@[simp] theorem setSp_iy (v : Word) : (setSp v s).iy = s.iy := rfl
@[simp] theorem setSp_sp (v : Word) : (setSp v s).sp = v := rfl
@[simp] theorem setSp_pc (v : Word) : (setSp v s).pc = s.pc := rfl
@[simp] theorem setSp_iff (v : Word) : (setSp v s).iff = s.iff := rfl
@[simp] theorem setSp_im (v : Word) : (setSp v s).im = s.im := rfl
@[simp] theorem setSp_fault (v : Word) : (setSp v s).fault = s.fault := rfl
@[simp] theorem setSp_mem (v : Word) : (setSp v s).mem = s.mem := rfl
@[simp] theorem setSp_platform (v : Word) : (setSp v s).platform = s.platform := rfl
@[simp] theorem setSp_history (v : Word) : (setSp v s).history = s.history := rfl
@[simp] theorem setSp_draws (v : Word) : (setSp v s).draws = s.draws := rfl

@[simp] theorem setBc_a (v : Word) : (setBc v s).a = s.a := rfl
@[simp] theorem setBc_f (v : Word) : (setBc v s).f = s.f := rfl
@[simp] theorem setBc_b (v : Word) : (setBc v s).b = hiByte v := rfl
@[simp] theorem setBc_c (v : Word) : (setBc v s).c = loByte v := rfl
@[simp] theorem setBc_d (v : Word) : (setBc v s).d = s.d := rfl
@[simp] theorem setBc_e (v : Word) : (setBc v s).e = s.e := rfl
@[simp] theorem setBc_h (v : Word) : (setBc v s).h = s.h := rfl
@[simp] theorem setBc_l (v : Word) : (setBc v s).l = s.l := rfl
@[simp] theorem setBc_a' (v : Word) : (setBc v s).a' = s.a' := rfl
@[simp] theorem setBc_f' (v : Word) : (setBc v s).f' = s.f' := rfl
@[simp] theorem setBc_b' (v : Word) : (setBc v s).b' = s.b' := rfl
@[simp] theorem setBc_c' (v : Word) : (setBc v s).c' = s.c' := rfl
@[simp] theorem setBc_d' (v : Word) : (setBc v s).d' = s.d' := rfl
@[simp] theorem setBc_e' (v : Word) : (setBc v s).e' = s.e' := rfl
@[simp] theorem setBc_h' (v : Word) : (setBc v s).h' = s.h' := rfl
@[simp] theorem setBc_l' (v : Word) : (setBc v s).l' = s.l' := rfl
@[simp] theorem setBc_ix (v : Word) : (setBc v s).ix = s.ix := rfl
@[simp] theorem setBc_iy (v : Word) : (setBc v s).iy = s.iy := rfl
@[simp] theorem setBc_sp (v : Word) : (setBc v s).sp = s.sp := rfl
@[simp] theorem setBc_pc (v : Word) : (setBc v s).pc = s.pc := rfl
@[simp] theorem setBc_iff (v : Word) : (setBc v s).iff = s.iff := rfl
@[simp] theorem setBc_im (v : Word) : (setBc v s).im = s.im := rfl
@[simp] theorem setBc_fault (v : Word) : (setBc v s).fault = s.fault := rfl
@[simp] theorem setBc_mem (v : Word) : (setBc v s).mem = s.mem := rfl
@[simp] theorem setBc_platform (v : Word) : (setBc v s).platform = s.platform := rfl
@[simp] theorem setBc_history (v : Word) : (setBc v s).history = s.history := rfl
@[simp] theorem setBc_draws (v : Word) : (setBc v s).draws = s.draws := rfl

@[simp] theorem setDe_a (v : Word) : (setDe v s).a = s.a := rfl
@[simp] theorem setDe_f (v : Word) : (setDe v s).f = s.f := rfl
@[simp] theorem setDe_b (v : Word) : (setDe v s).b = s.b := rfl
@[simp] theorem setDe_c (v : Word) : (setDe v s).c = s.c := rfl
@[simp] theorem setDe_d (v : Word) : (setDe v s).d = hiByte v := rfl
@[simp] theorem setDe_e (v : Word) : (setDe v s).e = loByte v := rfl
@[simp] theorem setDe_h (v : Word) : (setDe v s).h = s.h := rfl
@[simp] theorem setDe_l (v : Word) : (setDe v s).l = s.l := rfl
@[simp] theorem setDe_a' (v : Word) : (setDe v s).a' = s.a' := rfl
@[simp] theorem setDe_f' (v : Word) : (setDe v s).f' = s.f' := rfl
@[simp] theorem setDe_b' (v : Word) : (setDe v s).b' = s.b' := rfl
@[simp] theorem setDe_c' (v : Word) : (setDe v s).c' = s.c' := rfl
@[simp] theorem setDe_d' (v : Word) : (setDe v s).d' = s.d' := rfl
@[simp] theorem setDe_e' (v : Word) : (setDe v s).e' = s.e' := rfl
@[simp] theorem setDe_h' (v : Word) : (setDe v s).h' = s.h' := rfl
@[simp] theorem setDe_l' (v : Word) : (setDe v s).l' = s.l' := rfl
@[simp] theorem setDe_ix (v : Word) : (setDe v s).ix = s.ix := rfl
@[simp] theorem setDe_iy (v : Word) : (setDe v s).iy = s.iy := rfl
@[simp] theorem setDe_sp (v : Word) : (setDe v s).sp = s.sp := rfl
@[simp] theorem setDe_pc (v : Word) : (setDe v s).pc = s.pc := rfl
@[simp] theorem setDe_iff (v : Word) : (setDe v s).iff = s.iff := rfl
@[simp] theorem setDe_im (v : Word) : (setDe v s).im = s.im := rfl
@[simp] theorem setDe_fault (v : Word) : (setDe v s).fault = s.fault := rfl
@[simp] theorem setDe_mem (v : Word) : (setDe v s).mem = s.mem := rfl
@[simp] theorem setDe_platform (v : Word) : (setDe v s).platform = s.platform := rfl
@[simp] theorem setDe_history (v : Word) : (setDe v s).history = s.history := rfl
@[simp] theorem setDe_draws (v : Word) : (setDe v s).draws = s.draws := rfl

@[simp] theorem setHl_a (v : Word) : (setHl v s).a = s.a := rfl
@[simp] theorem setHl_f (v : Word) : (setHl v s).f = s.f := rfl
@[simp] theorem setHl_b (v : Word) : (setHl v s).b = s.b := rfl
@[simp] theorem setHl_c (v : Word) : (setHl v s).c = s.c := rfl
@[simp] theorem setHl_d (v : Word) : (setHl v s).d = s.d := rfl
@[simp] theorem setHl_e (v : Word) : (setHl v s).e = s.e := rfl
@[simp] theorem setHl_h (v : Word) : (setHl v s).h = hiByte v := rfl
@[simp] theorem setHl_l (v : Word) : (setHl v s).l = loByte v := rfl
@[simp] theorem setHl_a' (v : Word) : (setHl v s).a' = s.a' := rfl
@[simp] theorem setHl_f' (v : Word) : (setHl v s).f' = s.f' := rfl
@[simp] theorem setHl_b' (v : Word) : (setHl v s).b' = s.b' := rfl
@[simp] theorem setHl_c' (v : Word) : (setHl v s).c' = s.c' := rfl
@[simp] theorem setHl_d' (v : Word) : (setHl v s).d' = s.d' := rfl
@[simp] theorem setHl_e' (v : Word) : (setHl v s).e' = s.e' := rfl
@[simp] theorem setHl_h' (v : Word) : (setHl v s).h' = s.h' := rfl
@[simp] theorem setHl_l' (v : Word) : (setHl v s).l' = s.l' := rfl
@[simp] theorem setHl_ix (v : Word) : (setHl v s).ix = s.ix := rfl
@[simp] theorem setHl_iy (v : Word) : (setHl v s).iy = s.iy := rfl
@[simp] theorem setHl_sp (v : Word) : (setHl v s).sp = s.sp := rfl
@[simp] theorem setHl_pc (v : Word) : (setHl v s).pc = s.pc := rfl
@[simp] theorem setHl_iff (v : Word) : (setHl v s).iff = s.iff := rfl
@[simp] theorem setHl_im (v : Word) : (setHl v s).im = s.im := rfl
@[simp] theorem setHl_fault (v : Word) : (setHl v s).fault = s.fault := rfl
@[simp] theorem setHl_mem (v : Word) : (setHl v s).mem = s.mem := rfl
@[simp] theorem setHl_platform (v : Word) : (setHl v s).platform = s.platform := rfl
@[simp] theorem setHl_history (v : Word) : (setHl v s).history = s.history := rfl
@[simp] theorem setHl_draws (v : Word) : (setHl v s).draws = s.draws := rfl

@[simp] theorem setAf_a (v : Word) : (setAf v s).a = hiByte v := rfl
@[simp] theorem setAf_f (v : Word) : (setAf v s).f = loByte v := rfl
@[simp] theorem setAf_b (v : Word) : (setAf v s).b = s.b := rfl
@[simp] theorem setAf_c (v : Word) : (setAf v s).c = s.c := rfl
@[simp] theorem setAf_d (v : Word) : (setAf v s).d = s.d := rfl
@[simp] theorem setAf_e (v : Word) : (setAf v s).e = s.e := rfl
@[simp] theorem setAf_h (v : Word) : (setAf v s).h = s.h := rfl
@[simp] theorem setAf_l (v : Word) : (setAf v s).l = s.l := rfl
@[simp] theorem setAf_a' (v : Word) : (setAf v s).a' = s.a' := rfl
@[simp] theorem setAf_f' (v : Word) : (setAf v s).f' = s.f' := rfl
@[simp] theorem setAf_b' (v : Word) : (setAf v s).b' = s.b' := rfl
@[simp] theorem setAf_c' (v : Word) : (setAf v s).c' = s.c' := rfl
@[simp] theorem setAf_d' (v : Word) : (setAf v s).d' = s.d' := rfl
@[simp] theorem setAf_e' (v : Word) : (setAf v s).e' = s.e' := rfl
@[simp] theorem setAf_h' (v : Word) : (setAf v s).h' = s.h' := rfl
@[simp] theorem setAf_l' (v : Word) : (setAf v s).l' = s.l' := rfl
@[simp] theorem setAf_ix (v : Word) : (setAf v s).ix = s.ix := rfl
@[simp] theorem setAf_iy (v : Word) : (setAf v s).iy = s.iy := rfl
@[simp] theorem setAf_sp (v : Word) : (setAf v s).sp = s.sp := rfl
@[simp] theorem setAf_pc (v : Word) : (setAf v s).pc = s.pc := rfl
@[simp] theorem setAf_iff (v : Word) : (setAf v s).iff = s.iff := rfl
@[simp] theorem setAf_im (v : Word) : (setAf v s).im = s.im := rfl
@[simp] theorem setAf_fault (v : Word) : (setAf v s).fault = s.fault := rfl
@[simp] theorem setAf_mem (v : Word) : (setAf v s).mem = s.mem := rfl
@[simp] theorem setAf_platform (v : Word) : (setAf v s).platform = s.platform := rfl
@[simp] theorem setAf_history (v : Word) : (setAf v s).history = s.history := rfl
@[simp] theorem setAf_draws (v : Word) : (setAf v s).draws = s.draws := rfl

@[simp] theorem setIdx_a (i : Idx) (v : Word) : (setIdx i v s).a = s.a := by cases i <;> rfl
@[simp] theorem setIdx_f (i : Idx) (v : Word) : (setIdx i v s).f = s.f := by cases i <;> rfl
@[simp] theorem setIdx_b (i : Idx) (v : Word) : (setIdx i v s).b = s.b := by cases i <;> rfl
@[simp] theorem setIdx_c (i : Idx) (v : Word) : (setIdx i v s).c = s.c := by cases i <;> rfl
@[simp] theorem setIdx_d (i : Idx) (v : Word) : (setIdx i v s).d = s.d := by cases i <;> rfl
@[simp] theorem setIdx_e (i : Idx) (v : Word) : (setIdx i v s).e = s.e := by cases i <;> rfl
@[simp] theorem setIdx_h (i : Idx) (v : Word) : (setIdx i v s).h = s.h := by cases i <;> rfl
@[simp] theorem setIdx_l (i : Idx) (v : Word) : (setIdx i v s).l = s.l := by cases i <;> rfl
@[simp] theorem setIdx_a' (i : Idx) (v : Word) : (setIdx i v s).a' = s.a' := by cases i <;> rfl
@[simp] theorem setIdx_f' (i : Idx) (v : Word) : (setIdx i v s).f' = s.f' := by cases i <;> rfl
@[simp] theorem setIdx_b' (i : Idx) (v : Word) : (setIdx i v s).b' = s.b' := by cases i <;> rfl
@[simp] theorem setIdx_c' (i : Idx) (v : Word) : (setIdx i v s).c' = s.c' := by cases i <;> rfl
@[simp] theorem setIdx_d' (i : Idx) (v : Word) : (setIdx i v s).d' = s.d' := by cases i <;> rfl
@[simp] theorem setIdx_e' (i : Idx) (v : Word) : (setIdx i v s).e' = s.e' := by cases i <;> rfl
@[simp] theorem setIdx_h' (i : Idx) (v : Word) : (setIdx i v s).h' = s.h' := by cases i <;> rfl
@[simp] theorem setIdx_l' (i : Idx) (v : Word) : (setIdx i v s).l' = s.l' := by cases i <;> rfl
@[simp] theorem setIdx_sp (i : Idx) (v : Word) : (setIdx i v s).sp = s.sp := by cases i <;> rfl
@[simp] theorem setIdx_pc (i : Idx) (v : Word) : (setIdx i v s).pc = s.pc := by cases i <;> rfl
@[simp] theorem setIdx_iff (i : Idx) (v : Word) : (setIdx i v s).iff = s.iff := by cases i <;> rfl
@[simp] theorem setIdx_im (i : Idx) (v : Word) : (setIdx i v s).im = s.im := by cases i <;> rfl
@[simp] theorem setIdx_fault (i : Idx) (v : Word) : (setIdx i v s).fault = s.fault := by cases i <;> rfl
@[simp] theorem setIdx_mem (i : Idx) (v : Word) : (setIdx i v s).mem = s.mem := by cases i <;> rfl
@[simp] theorem setIdx_platform (i : Idx) (v : Word) : (setIdx i v s).platform = s.platform := by cases i <;> rfl
@[simp] theorem setIdx_history (i : Idx) (v : Word) : (setIdx i v s).history = s.history := by cases i <;> rfl
@[simp] theorem setIdx_draws (i : Idx) (v : Word) : (setIdx i v s).draws = s.draws := by cases i <;> rfl

@[simp] theorem setR8_f (r : Reg8) (v : Byte) : (setR8 r v s).f = s.f := by cases r <;> rfl
@[simp] theorem setR8_a' (r : Reg8) (v : Byte) : (setR8 r v s).a' = s.a' := by cases r <;> rfl
@[simp] theorem setR8_f' (r : Reg8) (v : Byte) : (setR8 r v s).f' = s.f' := by cases r <;> rfl
@[simp] theorem setR8_b' (r : Reg8) (v : Byte) : (setR8 r v s).b' = s.b' := by cases r <;> rfl
@[simp] theorem setR8_c' (r : Reg8) (v : Byte) : (setR8 r v s).c' = s.c' := by cases r <;> rfl
@[simp] theorem setR8_d' (r : Reg8) (v : Byte) : (setR8 r v s).d' = s.d' := by cases r <;> rfl
@[simp] theorem setR8_e' (r : Reg8) (v : Byte) : (setR8 r v s).e' = s.e' := by cases r <;> rfl
@[simp] theorem setR8_h' (r : Reg8) (v : Byte) : (setR8 r v s).h' = s.h' := by cases r <;> rfl
@[simp] theorem setR8_l' (r : Reg8) (v : Byte) : (setR8 r v s).l' = s.l' := by cases r <;> rfl
@[simp] theorem setR8_ix (r : Reg8) (v : Byte) : (setR8 r v s).ix = s.ix := by cases r <;> rfl
@[simp] theorem setR8_iy (r : Reg8) (v : Byte) : (setR8 r v s).iy = s.iy := by cases r <;> rfl
@[simp] theorem setR8_sp (r : Reg8) (v : Byte) : (setR8 r v s).sp = s.sp := by cases r <;> rfl
@[simp] theorem setR8_pc (r : Reg8) (v : Byte) : (setR8 r v s).pc = s.pc := by cases r <;> rfl
@[simp] theorem setR8_iff (r : Reg8) (v : Byte) : (setR8 r v s).iff = s.iff := by cases r <;> rfl
@[simp] theorem setR8_im (r : Reg8) (v : Byte) : (setR8 r v s).im = s.im := by cases r <;> rfl
@[simp] theorem setR8_fault (r : Reg8) (v : Byte) : (setR8 r v s).fault = s.fault := by cases r <;> rfl
@[simp] theorem setR8_mem (r : Reg8) (v : Byte) : (setR8 r v s).mem = s.mem := by cases r <;> rfl
@[simp] theorem setR8_platform (r : Reg8) (v : Byte) : (setR8 r v s).platform = s.platform := by cases r <;> rfl
@[simp] theorem setR8_history (r : Reg8) (v : Byte) : (setR8 r v s).history = s.history := by cases r <;> rfl
@[simp] theorem setR8_draws (r : Reg8) (v : Byte) : (setR8 r v s).draws = s.draws := by cases r <;> rfl

@[simp] theorem setPair_a (p : Pair) (v : Word) : (setPair p v s).a = s.a := by cases p <;> rfl
@[simp] theorem setPair_f (p : Pair) (v : Word) : (setPair p v s).f = s.f := by cases p <;> rfl
@[simp] theorem setPair_a' (p : Pair) (v : Word) : (setPair p v s).a' = s.a' := by cases p <;> rfl
@[simp] theorem setPair_f' (p : Pair) (v : Word) : (setPair p v s).f' = s.f' := by cases p <;> rfl
@[simp] theorem setPair_b' (p : Pair) (v : Word) : (setPair p v s).b' = s.b' := by cases p <;> rfl
@[simp] theorem setPair_c' (p : Pair) (v : Word) : (setPair p v s).c' = s.c' := by cases p <;> rfl
@[simp] theorem setPair_d' (p : Pair) (v : Word) : (setPair p v s).d' = s.d' := by cases p <;> rfl
@[simp] theorem setPair_e' (p : Pair) (v : Word) : (setPair p v s).e' = s.e' := by cases p <;> rfl
@[simp] theorem setPair_h' (p : Pair) (v : Word) : (setPair p v s).h' = s.h' := by cases p <;> rfl
@[simp] theorem setPair_l' (p : Pair) (v : Word) : (setPair p v s).l' = s.l' := by cases p <;> rfl
@[simp] theorem setPair_ix (p : Pair) (v : Word) : (setPair p v s).ix = s.ix := by cases p <;> rfl
@[simp] theorem setPair_iy (p : Pair) (v : Word) : (setPair p v s).iy = s.iy := by cases p <;> rfl
@[simp] theorem setPair_pc (p : Pair) (v : Word) : (setPair p v s).pc = s.pc := by cases p <;> rfl
@[simp] theorem setPair_iff (p : Pair) (v : Word) : (setPair p v s).iff = s.iff := by cases p <;> rfl
@[simp] theorem setPair_im (p : Pair) (v : Word) : (setPair p v s).im = s.im := by cases p <;> rfl
@[simp] theorem setPair_fault (p : Pair) (v : Word) : (setPair p v s).fault = s.fault := by cases p <;> rfl
@[simp] theorem setPair_mem (p : Pair) (v : Word) : (setPair p v s).mem = s.mem := by cases p <;> rfl
@[simp] theorem setPair_platform (p : Pair) (v : Word) : (setPair p v s).platform = s.platform := by cases p <;> rfl
@[simp] theorem setPair_history (p : Pair) (v : Word) : (setPair p v s).history = s.history := by cases p <;> rfl
@[simp] theorem setPair_draws (p : Pair) (v : Word) : (setPair p v s).draws = s.draws := by cases p <;> rfl

@[simp] theorem setPair2_a' (p : Pair2) (v : Word) : (setPair2 p v s).a' = s.a' := by cases p <;> rfl
@[simp] theorem setPair2_f' (p : Pair2) (v : Word) : (setPair2 p v s).f' = s.f' := by cases p <;> rfl
@[simp] theorem setPair2_b' (p : Pair2) (v : Word) : (setPair2 p v s).b' = s.b' := by cases p <;> rfl
@[simp] theorem setPair2_c' (p : Pair2) (v : Word) : (setPair2 p v s).c' = s.c' := by cases p <;> rfl
@[simp] theorem setPair2_d' (p : Pair2) (v : Word) : (setPair2 p v s).d' = s.d' := by cases p <;> rfl
@[simp] theorem setPair2_e' (p : Pair2) (v : Word) : (setPair2 p v s).e' = s.e' := by cases p <;> rfl
@[simp] theorem setPair2_h' (p : Pair2) (v : Word) : (setPair2 p v s).h' = s.h' := by cases p <;> rfl
@[simp] theorem setPair2_l' (p : Pair2) (v : Word) : (setPair2 p v s).l' = s.l' := by cases p <;> rfl
@[simp] theorem setPair2_ix (p : Pair2) (v : Word) : (setPair2 p v s).ix = s.ix := by cases p <;> rfl
@[simp] theorem setPair2_iy (p : Pair2) (v : Word) : (setPair2 p v s).iy = s.iy := by cases p <;> rfl
@[simp] theorem setPair2_sp (p : Pair2) (v : Word) : (setPair2 p v s).sp = s.sp := by cases p <;> rfl
@[simp] theorem setPair2_pc (p : Pair2) (v : Word) : (setPair2 p v s).pc = s.pc := by cases p <;> rfl
@[simp] theorem setPair2_iff (p : Pair2) (v : Word) : (setPair2 p v s).iff = s.iff := by cases p <;> rfl
@[simp] theorem setPair2_im (p : Pair2) (v : Word) : (setPair2 p v s).im = s.im := by cases p <;> rfl
@[simp] theorem setPair2_fault (p : Pair2) (v : Word) : (setPair2 p v s).fault = s.fault := by cases p <;> rfl
@[simp] theorem setPair2_mem (p : Pair2) (v : Word) : (setPair2 p v s).mem = s.mem := by cases p <;> rfl
@[simp] theorem setPair2_platform (p : Pair2) (v : Word) : (setPair2 p v s).platform = s.platform := by cases p <;> rfl
@[simp] theorem setPair2_history (p : Pair2) (v : Word) : (setPair2 p v s).history = s.history := by cases p <;> rfl
@[simp] theorem setPair2_draws (p : Pair2) (v : Word) : (setPair2 p v s).draws = s.draws := by cases p <;> rfl

@[simp] theorem writeF_a (v : Byte) : (writeF v s).a = s.a := by unfold writeF; split <;> rfl
@[simp] theorem writeF_b (v : Byte) : (writeF v s).b = s.b := by unfold writeF; split <;> rfl
@[simp] theorem writeF_c (v : Byte) : (writeF v s).c = s.c := by unfold writeF; split <;> rfl
@[simp] theorem writeF_d (v : Byte) : (writeF v s).d = s.d := by unfold writeF; split <;> rfl
@[simp] theorem writeF_e (v : Byte) : (writeF v s).e = s.e := by unfold writeF; split <;> rfl
@[simp] theorem writeF_h (v : Byte) : (writeF v s).h = s.h := by unfold writeF; split <;> rfl
@[simp] theorem writeF_l (v : Byte) : (writeF v s).l = s.l := by unfold writeF; split <;> rfl
@[simp] theorem writeF_a' (v : Byte) : (writeF v s).a' = s.a' := by unfold writeF; split <;> rfl
@[simp] theorem writeF_f' (v : Byte) : (writeF v s).f' = s.f' := by unfold writeF; split <;> rfl
@[simp] theorem writeF_b' (v : Byte) : (writeF v s).b' = s.b' := by unfold writeF; split <;> rfl
@[simp] theorem writeF_c' (v : Byte) : (writeF v s).c' = s.c' := by unfold writeF; split <;> rfl
@[simp] theorem writeF_d' (v : Byte) : (writeF v s).d' = s.d' := by unfold writeF; split <;> rfl
@[simp] theorem writeF_e' (v : Byte) : (writeF v s).e' = s.e' := by unfold writeF; split <;> rfl
@[simp] theorem writeF_h' (v : Byte) : (writeF v s).h' = s.h' := by unfold writeF; split <;> rfl
@[simp] theorem writeF_l' (v : Byte) : (writeF v s).l' = s.l' := by unfold writeF; split <;> rfl
@[simp] theorem writeF_ix (v : Byte) : (writeF v s).ix = s.ix := by unfold writeF; split <;> rfl
@[simp] theorem writeF_iy (v : Byte) : (writeF v s).iy = s.iy := by unfold writeF; split <;> rfl
@[simp] theorem writeF_sp (v : Byte) : (writeF v s).sp = s.sp := by unfold writeF; split <;> rfl
@[simp] theorem writeF_pc (v : Byte) : (writeF v s).pc = s.pc := by unfold writeF; split <;> rfl
@[simp] theorem writeF_iff (v : Byte) : (writeF v s).iff = s.iff := by unfold writeF; split <;> rfl
@[simp] theorem writeF_im (v : Byte) : (writeF v s).im = s.im := by unfold writeF; split <;> rfl
@[simp] theorem writeF_fault (v : Byte) : (writeF v s).fault = s.fault := by unfold writeF; split <;> rfl
@[simp] theorem writeF_mem (v : Byte) : (writeF v s).mem = s.mem := by unfold writeF; split <;> rfl
@[simp] theorem writeF_platform (v : Byte) : (writeF v s).platform = s.platform := by unfold writeF; split <;> rfl
@[simp] theorem writeF_history (v : Byte) : (writeF v s).history = s.history := by unfold writeF; split <;> rfl

@[simp] theorem getR8_setR8 (r q : Reg8) (v : Byte) :
    getR8 q (setR8 r v s) = if q = r then v else getR8 q s := by
  cases r <;> cases q <;> rfl

@[simp] theorem getIdx_setIdx (i j : Idx) (v : Word) :
    getIdx j (setIdx i v s) = if j = i then v else getIdx j s := by
  cases i <;> cases j <;> rfl

@[simp] theorem nextPc_record (n : Nat) (x : Access) : nextPc n (record x s) = nextPc n s := rfl

@[simp] theorem getHl_record (x : Access) : getHl (record x s) = getHl s := rfl

@[simp] theorem getDe_record (x : Access) : getDe (record x s) = getDe s := rfl

@[simp] theorem getBc_record (x : Access) : getBc (record x s) = getBc s := rfl

@[simp] theorem getR8_record (r : Reg8) (x : Access) : getR8 r (record x s) = getR8 r s := by
  cases r <;> rfl

@[simp] theorem getIdx_record (i : Idx) (x : Access) : getIdx i (record x s) = getIdx i s := by
  cases i <;> rfl

@[simp] theorem peek_record (a : Word) (x : Access) : peek (record x s) a = peek s a := rfl

/-- Under `XY_POLICY = result`, `WriteF` only replaces F (R131). -/
theorem writeF_of_result (v : Byte) (h : s.platform.xyPolicy = .result) :
    writeF v s = { s with f := v } := by
  simp [writeF, h]

end Sys2Proof.Machine
end

