-- ==== Sys2Proof/Laws/Ops.lean ====
section
/-! SUPPORT. For each shared operation, one lemma that says everything it can do. -/

namespace Sys2Proof

theorem mkWord_toNat (hi lo : Byte) : (mkWord hi lo).toNat = 256 * hi.toNat + lo.toNat := by
  have := hi.isLt
  have := lo.isLt
  simp only [mkWord, BitVec.toNat_ofNat]
  omega

theorem loByte_toNat (v : Word) : (loByte v).toNat = v.toNat % 256 := by
  simp [loByte]

theorem hiByte_toNat (v : Word) : (hiByte v).toNat = v.toNat / 256 := by
  have := v.isLt
  simp only [hiByte, BitVec.toNat_ofNat]
  omega

@[simp] theorem loByte_mkWord (hi lo : Byte) : loByte (mkWord hi lo) = lo := by
  apply BitVec.eq_of_toNat_eq
  have := lo.isLt
  rw [loByte_toNat, mkWord_toNat]
  omega

@[simp] theorem hiByte_mkWord (hi lo : Byte) : hiByte (mkWord hi lo) = hi := by
  apply BitVec.eq_of_toNat_eq
  have := lo.isLt
  rw [hiByte_toNat, mkWord_toNat]
  omega

@[simp] theorem mkWord_hiByte_loByte (v : Word) : mkWord (hiByte v) (loByte v) = v := by
  apply BitVec.eq_of_toNat_eq
  rw [mkWord_toNat, hiByte_toNat, loByte_toNat]
  omega

end Sys2Proof

namespace Sys2Proof.Machine

@[simp] theorem andThen_next (s : State) (k : State → Out) : andThen (.next s) k = k s := rfl

@[simp] theorem andThen_fault (r : Fault) (k : State → Out) : andThen (.fault r) k = .fault r := rfl

@[simp] theorem andThen_refused (r : Refusal) (k : State → Out) : andThen (.refused r) k = .refused r := rfl

/-- A sequence answers a next state iff both its parts do. -/
theorem andThen_eq_next {o : Out} {k : State → Out} {t : State} :
    andThen o k = .next t ↔ ∃ u, o = .next u ∧ k u = .next t := by
  cases o <;> simp [andThen]

/-- A sequence faults iff its first part does, or its second after it. -/
theorem andThen_eq_fault {o : Out} {k : State → Out} {r : Fault} :
    andThen o k = .fault r ↔ o = .fault r ∨ ∃ u, o = .next u ∧ k u = .fault r := by
  cases o <;> simp [andThen]

/-- Everything `memWrite` can do (R61, R63). -/
theorem memWrite_eq (a : Word) (v : Byte) (s : State) :
    memWrite a v s = if accepts s a then .next (stored a v s) else raiseViolation .unmappedWrite a v s := by
  unfold memWrite accepts stored record
  cases memKind s a <;> simp [kindAccepts]

@[simp] theorem memRead_fst (a : Word) (s : State) : (memRead a s).1 = peek s a := rfl

@[simp] theorem memRead_snd (a : Word) (s : State) : (memRead a s).2 = record (.memRead a (peek s a)) s := rfl

/-- Everything `memRead2` does (R11). -/
theorem memRead2_eq (a : Word) (s : State) :
    memRead2 a s = (mkWord (peek s (a + 1)) (peek s a),
      record (.memRead (a + 1) (peek s (a + 1))) (record (.memRead a (peek s a)) s)) := rfl

/-- What an address reads as after an accepted write. -/
theorem peek_stored (a : Word) (v : Byte) (s : State) (x : Word) :
    peek (stored a v s) x = readsAfter s a v (peek s) x := by
  have hk : memKind (stored a v s) x = memKind s x := rfl
  have hp : (stored a v s).platform = s.platform := rfl
  unfold readsAfter peek
  rw [hk, hp]
  by_cases hr : memKind s a = .ram
  · have hm : (stored a v s).mem = memPut s.mem a.toNat v := by simp [stored, hr]
    rw [hm, memGet_memPut]
    by_cases hx : x = a
    · subst hx; simp [hr, kindHolds]
    · have : x.toNat ≠ a.toNat := fun h => hx (BitVec.eq_of_toNat_eq h)
      simp [hx, this]
  · have hm : (stored a v s).mem = s.mem := by simp [stored, hr]
    rw [hm]
    simp [hr]

section Stored
variable (x : Word) (v : Byte) (s : State)

@[simp] theorem stored_a : (stored x v s).a = s.a := rfl
@[simp] theorem stored_f : (stored x v s).f = s.f := rfl
@[simp] theorem stored_b : (stored x v s).b = s.b := rfl
@[simp] theorem stored_c : (stored x v s).c = s.c := rfl
@[simp] theorem stored_d : (stored x v s).d = s.d := rfl
@[simp] theorem stored_e : (stored x v s).e = s.e := rfl
@[simp] theorem stored_h : (stored x v s).h = s.h := rfl
@[simp] theorem stored_l : (stored x v s).l = s.l := rfl
@[simp] theorem stored_a' : (stored x v s).a' = s.a' := rfl
@[simp] theorem stored_f' : (stored x v s).f' = s.f' := rfl
@[simp] theorem stored_b' : (stored x v s).b' = s.b' := rfl
@[simp] theorem stored_c' : (stored x v s).c' = s.c' := rfl
@[simp] theorem stored_d' : (stored x v s).d' = s.d' := rfl
@[simp] theorem stored_e' : (stored x v s).e' = s.e' := rfl
@[simp] theorem stored_h' : (stored x v s).h' = s.h' := rfl
@[simp] theorem stored_l' : (stored x v s).l' = s.l' := rfl
@[simp] theorem stored_ix : (stored x v s).ix = s.ix := rfl
@[simp] theorem stored_iy : (stored x v s).iy = s.iy := rfl
@[simp] theorem stored_sp : (stored x v s).sp = s.sp := rfl
@[simp] theorem stored_pc : (stored x v s).pc = s.pc := rfl
@[simp] theorem stored_iff : (stored x v s).iff = s.iff := rfl
@[simp] theorem stored_im : (stored x v s).im = s.im := rfl
@[simp] theorem stored_fault : (stored x v s).fault = s.fault := rfl
@[simp] theorem stored_platform : (stored x v s).platform = s.platform := rfl
@[simp] theorem stored_draws : (stored x v s).draws = s.draws := rfl
@[simp] theorem stored_history : (stored x v s).history = .memWrite x v :: s.history := rfl

end Stored

/-- A read depends only on memory and the platform. -/
theorem peek_congr {s t : State} (hm : t.mem = s.mem) (hp : t.platform = s.platform) : peek t = peek s := by
  funext x
  unfold peek memKind
  rw [hm, hp]

/-- Whether a write is accepted depends only on the platform. -/
theorem accepts_congr {s t : State} (hp : t.platform = s.platform) : accepts t = accepts s := by
  funext x
  unfold accepts memKind
  rw [hp]

section Peek
variable (s : State)

@[simp] theorem peek_advance (n : Nat) : peek (advance n s) = peek s := peek_congr (by simp) (by simp)
@[simp] theorem peek_setPc (v : Word) : peek (setPc v s) = peek s := peek_congr (by simp) (by simp)
@[simp] theorem peek_setSp (v : Word) : peek (setSp v s) = peek s := peek_congr (by simp) (by simp)
@[simp] theorem peek_setBc (v : Word) : peek (setBc v s) = peek s := peek_congr (by simp) (by simp)
@[simp] theorem peek_setDe (v : Word) : peek (setDe v s) = peek s := peek_congr (by simp) (by simp)
@[simp] theorem peek_setHl (v : Word) : peek (setHl v s) = peek s := peek_congr (by simp) (by simp)
@[simp] theorem peek_setIdx (i : Idx) (v : Word) : peek (setIdx i v s) = peek s := peek_congr (by simp) (by simp)
@[simp] theorem peek_setPair (p : Pair) (v : Word) : peek (setPair p v s) = peek s := peek_congr (by simp) (by simp)
@[simp] theorem peek_setPair2 (p : Pair2) (v : Word) : peek (setPair2 p v s) = peek s := peek_congr (by simp) (by simp)
@[simp] theorem peek_setR8 (r : Reg8) (v : Byte) : peek (setR8 r v s) = peek s := peek_congr (by simp) (by simp)
@[simp] theorem peek_writeF (v : Byte) : peek (writeF v s) = peek s := peek_congr (by simp) (by simp)

end Peek

theorem memKind_stored (a : Word) (v : Byte) (s : State) (x : Word) :
    memKind (stored a v s) x = memKind s x := rfl

theorem accepts_stored (a : Word) (v : Byte) (s : State) (x : Word) :
    accepts (stored a v s) x = accepts s x := rfl

theorem accepts_record (y : Access) (s : State) (x : Word) : accepts (record y s) x = accepts s x := rfl

/-- An accepted write keeps the canonical form. -/
theorem stored_wf (a : Word) (v : Byte) (s : State) (h : memWf s.mem = true) :
    memWf (stored a v s).mem = true := by
  unfold stored
  by_cases hr : memKind s a = .ram
  · simp only [hr, if_true]; exact memPut_wf _ _ _ (by have := a.isLt; omega) h
  · simpa [hr] using h

/-- Everything `memWrite2` can do (R11): the low byte stands if the high byte is rejected (R402). -/
theorem memWrite2_eq (a v : Word) (s : State) :
    memWrite2 a v s =
      if accepts s a then
        (if accepts s (a + 1) then .next (stored (a + 1) (hiByte v) (stored a (loByte v) s))
         else raiseViolation .unmappedWrite (a + 1) (hiByte v) (stored a (loByte v) s))
      else raiseViolation .unmappedWrite a (loByte v) s := by
  unfold memWrite2
  rw [memWrite_eq]
  by_cases h : accepts s a
  · simp only [h, if_true, andThen_next, memWrite_eq, accepts_stored]
    rfl
  · simp only [h, if_false, Bool.false_eq_true, raiseViolation, andThen_fault]

/-- Everything `push16` can do (R290, R402). -/
theorem push16_eq (v : Word) (s : State) :
    push16 v s =
      if accepts s (s.sp - 1) then
        (if accepts s (s.sp - 2) then
           .next (setSp (s.sp - 2) (stored (s.sp - 2) (loByte v) (stored (s.sp - 1) (hiByte v) s)))
         else raiseViolation .unmappedWrite (s.sp - 2) (loByte v) (stored (s.sp - 1) (hiByte v) s))
      else raiseViolation .unmappedWrite (s.sp - 1) (hiByte v) s := by
  unfold push16
  rw [memWrite_eq]
  by_cases h : accepts s (s.sp - 1)
  · have hsp : (stored (s.sp - 1) (hiByte v) s).sp = s.sp := rfl
    simp only [h, if_true, andThen_next, memWrite_eq, accepts_stored, hsp]
    by_cases h2 : accepts s (s.sp - 2)
    · simp only [h2, if_true, andThen_next]; rfl
    · simp only [h2, if_false, Bool.false_eq_true, raiseViolation, andThen_fault]
  · simp only [h, if_false, Bool.false_eq_true, raiseViolation, andThen_fault]

/-- Everything `pop16` does (R291). -/
theorem pop16_eq (s : State) :
    pop16 s = (mkWord (peek s (s.sp + 1)) (peek s s.sp),
      { s with
        sp := s.sp + 2
        history := .memRead (s.sp + 1) (peek s (s.sp + 1)) :: .memRead s.sp (peek s s.sp) :: s.history }) := rfl

/-- Everything `ioWrite` can do (R66, R402). -/
theorem ioWrite_eq (p v : Byte) (s : State) :
    ioWrite p v s = if p ∈ s.platform.rejectedPorts then raiseViolation .ioWrite (p.setWidth 16) v s
      else .next (record (.ioWrite p v) s) := rfl

theorem kindIn_accepts (rs : List Region) (h : (rs.all fun r => kindAccepts r.kind) = true) (x : Nat) :
    kindAccepts (kindIn rs x) = true := by
  induction rs with
  | nil => rfl
  | cons r rs ih =>
    rw [List.all_cons, Bool.and_eq_true] at h
    unfold kindIn
    split
    · exact h.1
    · exact ih h.2

/-- On a platform that never rejects, every address accepts. -/
theorem accepts_of_neverRejects (s : State) (h : neverRejects s.platform = true) (a : Word) :
    accepts s a = true := by
  unfold neverRejects at h
  rw [Bool.and_eq_true] at h
  exact kindIn_accepts _ h.2 a.toNat

/-- The fetch reads change only the history (R75). -/
theorem fetched_frame (n : Nat) (s : State) : fetched n s = { s with history := (fetched n s).history } := by
  have key : ∀ (n : Nat) (a : Word) (s : State), readFrom n a s = { s with history := (readFrom n a s).history } := by
    intro n
    induction n with
    | zero => intros; rfl
    | succ n ih => intro a s; exact ih (a + 1) (memRead a s).2
  exact key n s.pc s

end Sys2Proof.Machine
end

