-- ==== Sys2Proof/Laws/Flags.lean ====
section
/-! SUPPORT. The bits of the flag bytes the flag unit makes, and what WriteF does. -/

namespace Sys2Proof.Machine

section Pack
variable (s z b5 h b3 pv n c : Bool)

@[simp] theorem flagS_pack : flagS (packFlags s z b5 h b3 pv n c) = s := by
  revert s z b5 h b3 pv n c; decide

@[simp] theorem flagZ_pack : flagZ (packFlags s z b5 h b3 pv n c) = z := by
  revert s z b5 h b3 pv n c; decide

@[simp] theorem flag5_pack : flag5 (packFlags s z b5 h b3 pv n c) = b5 := by
  revert s z b5 h b3 pv n c; decide

@[simp] theorem flagH_pack : flagH (packFlags s z b5 h b3 pv n c) = h := by
  revert s z b5 h b3 pv n c; decide

@[simp] theorem flag3_pack : flag3 (packFlags s z b5 h b3 pv n c) = b3 := by
  revert s z b5 h b3 pv n c; decide

@[simp] theorem flagPV_pack : flagPV (packFlags s z b5 h b3 pv n c) = pv := by
  revert s z b5 h b3 pv n c; decide

@[simp] theorem flagN_pack : flagN (packFlags s z b5 h b3 pv n c) = n := by
  revert s z b5 h b3 pv n c; decide

@[simp] theorem flagC_pack : flagC (packFlags s z b5 h b3 pv n c) = c := by
  revert s z b5 h b3 pv n c; decide

end Pack

/-- A flag byte is its eight flags. -/
theorem packFlags_eta (f : Byte) :
    packFlags (flagS f) (flagZ f) (flag5 f) (flagH f) (flag3 f) (flagPV f) (flagN f) (flagC f) = f := by
  revert f; decide

/-- Everything `WriteF` can do (R131). -/
theorem writeF_spec (f : Byte) (s : State) :
    writeF f s = { s with f := (writeF f s).f, draws := (writeF f s).draws } ∧ flagsWritten f s (writeF f s) := by
  unfold writeF flagsWritten
  cases s.platform.xyPolicy
  · exact ⟨rfl, rfl, rfl⟩
  · refine ⟨rfl, ?_, rfl⟩
    have key : ∀ (x y : Byte), (((x &&& ~~~xyMask) ||| (y &&& xyMask)) &&& 0xD7) = x &&& 0xD7 := by
      intro x y
      apply BitVec.eq_of_getLsbD_eq
      intro i hi
      simp only [BitVec.getLsbD_and, BitVec.getLsbD_or, BitVec.getLsbD_not]
      have : ∀ j : Fin 8, (xyMask.getLsbD j.val = !(0xD7#8).getLsbD j.val) := by decide
      have h := this ⟨i, hi⟩
      simp only at h
      rw [h]
      cases (0xD7#8).getLsbD i <;> simp [hi]
    exact key f _

end Sys2Proof.Machine
end

