-- ==== Sys2Proof/Laws/PerInstr.lean ====
section
/-! SUPPORT. Statements made per instruction, one lemma per constructor. -/

namespace Sys2Proof.Laws.EncodeLength

/-- The encoding of an instruction has the length the formats of R91 give it. -/
def Statement (i : Instr) : Prop := (encode i).length = instrLength i

theorem ldRR (dst : Reg8) (src : Reg8) : Statement (.ldRR dst src) := rfl

theorem ldRN (dst : Reg8) (n : Byte) : Statement (.ldRN dst n) := rfl

theorem ldRMHl (dst : Reg8) : Statement (.ldRMHl dst) := rfl

theorem ldMHlR (r : Reg8) : Statement (.ldMHlR r) := rfl

theorem ldMHlN (n : Byte) : Statement (.ldMHlN n) := rfl

theorem ldRMIdx (i : Idx) (t : Reg8) (d : Byte) : Statement (.ldRMIdx i t d) := rfl

theorem ldMIdxR (i : Idx) (d : Byte) (r : Reg8) : Statement (.ldMIdxR i d r) := rfl

theorem ldMIdxN (i : Idx) (d : Byte) (n : Byte) : Statement (.ldMIdxN i d n) := rfl

theorem ldAMBc : Statement (.ldAMBc) := rfl

theorem ldAMDe : Statement (.ldAMDe) := rfl

theorem ldMBcA : Statement (.ldMBcA) := rfl

theorem ldMDeA : Statement (.ldMDeA) := rfl

theorem ldAMNn (nn : Word) : Statement (.ldAMNn nn) := rfl

theorem ldMNnA (nn : Word) : Statement (.ldMNnA nn) := rfl

theorem ldDdNn (p : Pair) (nn : Word) : Statement (.ldDdNn p nn) := rfl

theorem ldIdxNn (i : Idx) (nn : Word) : Statement (.ldIdxNn i nn) := rfl

theorem ldHlMNn (nn : Word) : Statement (.ldHlMNn nn) := rfl

theorem ldMNnHl (nn : Word) : Statement (.ldMNnHl nn) := rfl

theorem ldDdMNn (p : Pair) (nn : Word) : Statement (.ldDdMNn p nn) := rfl

theorem ldMNnDd (nn : Word) (p : Pair) : Statement (.ldMNnDd nn p) := rfl

theorem ldIdxMNn (i : Idx) (nn : Word) : Statement (.ldIdxMNn i nn) := rfl

theorem ldMNnIdx (nn : Word) (i : Idx) : Statement (.ldMNnIdx nn i) := rfl

theorem ldSpHl : Statement (.ldSpHl) := rfl

theorem ldSpIdx (i : Idx) : Statement (.ldSpIdx i) := rfl

theorem addAR (r : Reg8) : Statement (.addAR r) := rfl

theorem addAN (n : Byte) : Statement (.addAN n) := rfl

theorem addAMHl : Statement (.addAMHl) := rfl

theorem addAMIdx (i : Idx) (d : Byte) : Statement (.addAMIdx i d) := rfl

theorem adcAR (r : Reg8) : Statement (.adcAR r) := rfl

theorem adcAN (n : Byte) : Statement (.adcAN n) := rfl

theorem adcAMHl : Statement (.adcAMHl) := rfl

theorem adcAMIdx (i : Idx) (d : Byte) : Statement (.adcAMIdx i d) := rfl

theorem subR (r : Reg8) : Statement (.subR r) := rfl

theorem subN (n : Byte) : Statement (.subN n) := rfl

theorem subMHl : Statement (.subMHl) := rfl

theorem subMIdx (i : Idx) (d : Byte) : Statement (.subMIdx i d) := rfl

theorem sbcAR (r : Reg8) : Statement (.sbcAR r) := rfl

theorem sbcAN (n : Byte) : Statement (.sbcAN n) := rfl

theorem sbcAMHl : Statement (.sbcAMHl) := rfl

theorem sbcAMIdx (i : Idx) (d : Byte) : Statement (.sbcAMIdx i d) := rfl

theorem andR (r : Reg8) : Statement (.andR r) := rfl

theorem andN (n : Byte) : Statement (.andN n) := rfl

theorem andMHl : Statement (.andMHl) := rfl

theorem andMIdx (i : Idx) (d : Byte) : Statement (.andMIdx i d) := rfl

theorem xorR (r : Reg8) : Statement (.xorR r) := rfl

theorem xorN (n : Byte) : Statement (.xorN n) := rfl

theorem xorMHl : Statement (.xorMHl) := rfl

theorem xorMIdx (i : Idx) (d : Byte) : Statement (.xorMIdx i d) := rfl

theorem orR (r : Reg8) : Statement (.orR r) := rfl

theorem orN (n : Byte) : Statement (.orN n) := rfl

theorem orMHl : Statement (.orMHl) := rfl

theorem orMIdx (i : Idx) (d : Byte) : Statement (.orMIdx i d) := rfl

theorem cpR (r : Reg8) : Statement (.cpR r) := rfl

theorem cpN (n : Byte) : Statement (.cpN n) := rfl

theorem cpMHl : Statement (.cpMHl) := rfl

theorem cpMIdx (i : Idx) (d : Byte) : Statement (.cpMIdx i d) := rfl

theorem incR (r : Reg8) : Statement (.incR r) := rfl

theorem incMHl : Statement (.incMHl) := rfl

theorem incMIdx (i : Idx) (d : Byte) : Statement (.incMIdx i d) := rfl

theorem decR (r : Reg8) : Statement (.decR r) := rfl

theorem decMHl : Statement (.decMHl) := rfl

theorem decMIdx (i : Idx) (d : Byte) : Statement (.decMIdx i d) := rfl

theorem addHlSs (p : Pair) : Statement (.addHlSs p) := rfl

theorem addIdxPp (i : Idx) (p : PairX) : Statement (.addIdxPp i p) := rfl

theorem adcHlSs (p : Pair) : Statement (.adcHlSs p) := rfl

theorem sbcHlSs (p : Pair) : Statement (.sbcHlSs p) := rfl

theorem incSs (p : Pair) : Statement (.incSs p) := rfl

theorem decSs (p : Pair) : Statement (.decSs p) := rfl

theorem incIdx (i : Idx) : Statement (.incIdx i) := rfl

theorem decIdx (i : Idx) : Statement (.decIdx i) := rfl

theorem cpl : Statement (.cpl) := rfl

theorem jpNn (nn : Word) : Statement (.jpNn nn) := rfl

theorem jpCcNn (cc : Cond) (nn : Word) : Statement (.jpCcNn cc nn) := rfl

theorem jpHl : Statement (.jpHl) := rfl

theorem jpIdx (i : Idx) : Statement (.jpIdx i) := rfl

theorem jrE (e : Byte) : Statement (.jrE e) := rfl

theorem jrCcE (cc : Cond) (e : Byte) : Statement (.jrCcE cc e) := rfl

theorem djnzE (e : Byte) : Statement (.djnzE e) := rfl

theorem callNn (nn : Word) : Statement (.callNn nn) := rfl

theorem callCcNn (cc : Cond) (nn : Word) : Statement (.callCcNn cc nn) := rfl

theorem ret : Statement (.ret) := rfl

theorem retCc (cc : Cond) : Statement (.retCc cc) := rfl

theorem rstP (t : Fin 8) : Statement (.rstP t) := rfl

theorem pushQq (p : Pair2) : Statement (.pushQq p) := rfl

theorem popQq (p : Pair2) : Statement (.popQq p) := rfl

theorem pushIdx (i : Idx) : Statement (.pushIdx i) := rfl

theorem popIdx (i : Idx) : Statement (.popIdx i) := rfl

theorem exDeHl : Statement (.exDeHl) := rfl

theorem exAfAf : Statement (.exAfAf) := rfl

theorem exx : Statement (.exx) := rfl

theorem exMSpHl : Statement (.exMSpHl) := rfl

theorem exMSpIdx (i : Idx) : Statement (.exMSpIdx i) := rfl

theorem rlca : Statement (.rlca) := rfl

theorem rrca : Statement (.rrca) := rfl

theorem rla : Statement (.rla) := rfl

theorem rra : Statement (.rra) := rfl

theorem rlcR (r : Reg8) : Statement (.rlcR r) := rfl

theorem rlcMHl : Statement (.rlcMHl) := rfl

theorem rlcMIdx (i : Idx) (d : Byte) : Statement (.rlcMIdx i d) := rfl

theorem rrcR (r : Reg8) : Statement (.rrcR r) := rfl

theorem rrcMHl : Statement (.rrcMHl) := rfl

theorem rrcMIdx (i : Idx) (d : Byte) : Statement (.rrcMIdx i d) := rfl

theorem rlR (r : Reg8) : Statement (.rlR r) := rfl

theorem rlMHl : Statement (.rlMHl) := rfl

theorem rlMIdx (i : Idx) (d : Byte) : Statement (.rlMIdx i d) := rfl

theorem rrR (r : Reg8) : Statement (.rrR r) := rfl

theorem rrMHl : Statement (.rrMHl) := rfl

theorem rrMIdx (i : Idx) (d : Byte) : Statement (.rrMIdx i d) := rfl

theorem slaR (r : Reg8) : Statement (.slaR r) := rfl

theorem slaMHl : Statement (.slaMHl) := rfl

theorem slaMIdx (i : Idx) (d : Byte) : Statement (.slaMIdx i d) := rfl

theorem sraR (r : Reg8) : Statement (.sraR r) := rfl

theorem sraMHl : Statement (.sraMHl) := rfl

theorem sraMIdx (i : Idx) (d : Byte) : Statement (.sraMIdx i d) := rfl

theorem sllR (r : Reg8) : Statement (.sllR r) := rfl

theorem sllMHl : Statement (.sllMHl) := rfl

theorem sllMIdx (i : Idx) (d : Byte) : Statement (.sllMIdx i d) := rfl

theorem srlR (r : Reg8) : Statement (.srlR r) := rfl

theorem srlMHl : Statement (.srlMHl) := rfl

theorem srlMIdx (i : Idx) (d : Byte) : Statement (.srlMIdx i d) := rfl

theorem bitBR (b : Fin 8) (r : Reg8) : Statement (.bitBR b r) := rfl

theorem bitBMHl (b : Fin 8) : Statement (.bitBMHl b) := rfl

theorem bitBMIdx (b : Fin 8) (i : Idx) (d : Byte) : Statement (.bitBMIdx b i d) := rfl

theorem resBR (b : Fin 8) (r : Reg8) : Statement (.resBR b r) := rfl

theorem resBMHl (b : Fin 8) : Statement (.resBMHl b) := rfl

theorem resBMIdx (b : Fin 8) (i : Idx) (d : Byte) : Statement (.resBMIdx b i d) := rfl

theorem setBR (b : Fin 8) (r : Reg8) : Statement (.setBR b r) := rfl

theorem setBMHl (b : Fin 8) : Statement (.setBMHl b) := rfl

theorem setBMIdx (b : Fin 8) (i : Idx) (d : Byte) : Statement (.setBMIdx b i d) := rfl

theorem ldi : Statement (.ldi) := rfl

theorem ldd : Statement (.ldd) := rfl

theorem ldir : Statement (.ldir) := rfl

theorem lddr : Statement (.lddr) := rfl

theorem cpi : Statement (.cpi) := rfl

theorem cpd : Statement (.cpd) := rfl

theorem cpir : Statement (.cpir) := rfl

theorem cpdr : Statement (.cpdr) := rfl

theorem inAMN (n : Byte) : Statement (.inAMN n) := rfl

theorem outMNA (n : Byte) : Statement (.outMNA n) := rfl

theorem di : Statement (.di) := rfl

theorem ei : Statement (.ei) := rfl

theorem im0 : Statement (.im0) := rfl

theorem im1 : Statement (.im1) := rfl

theorem im2 : Statement (.im2) := rfl

theorem nop : Statement (.nop) := rfl

end Sys2Proof.Laws.EncodeLength
end

