-- ==== Sys2Proof/Laws/Shared.lean ====
section
/-! SUPPORT. For each operation that several meanings share, one lemma that says everything it can do. -/

namespace Sys2Proof.Machine

theorem andThen_assoc (o : Out) (k k' : State → Out) :
    andThen (andThen o k) k' = andThen o fun s => andThen (k s) k' := by
  cases o <;> rfl

/-- A read through an operand form changes only the history (R167). -/
theorem readSrc_frame (x : Src) (s : State) :
    (readSrc x s).2 = { s with history := (readSrc x s).2.history } := by
  cases x <;> rfl

/-- A read changes nothing about which writes are accepted (R60). -/
theorem accepts_memRead (a x : Word) (s : State) : accepts (memRead a s).2 x = accepts s x := rfl

/-- A one-byte store (R183): done, or rejected with nothing changed. -/
theorem storeByte_eq (a : Word) (v : Byte) (n : Nat) (s : State) :
    storeByte a v n s =
      if accepts s a then .next (advance n (stored a v s)) else raiseViolation .unmappedWrite a v s := by
  unfold storeByte
  rw [memWrite_eq]
  split <;> rfl

/-- A two-byte store (R197). -/
theorem storeWord_eq (a v : Word) (n : Nat) (s : State) :
    storeWord a v n s =
      if accepts s a then
        (if accepts s (a + 1) then .next (advance n (stored (a + 1) (hiByte v) (stored a (loByte v) s)))
         else raiseViolation .unmappedWrite (a + 1) (hiByte v) (stored a (loByte v) s))
      else raiseViolation .unmappedWrite a (loByte v) s := by
  unfold storeWord
  rw [memWrite2_eq]
  split
  · split <;> rfl
  · rfl

/-- A read-modify-write that sets flags (R168): the flags come after the write. -/
theorem modifyMem_eq (x : Loc) (g : Byte → Byte × Byte) (n : Nat) (s : State) :
    modifyMem x g n s =
      let a := locAddr x s
      let p := g (peek s a)
      if accepts s a then .next (advance n (writeF p.2 (stored a p.1 (memRead a s).2)))
      else raiseViolation .unmappedWrite a p.1 (memRead a s).2 := by
  simp only [modifyMem, memRead_fst, memWrite_eq, accepts_memRead]
  by_cases h : accepts s (locAddr x s) <;> simp only [h, if_true, if_false, Bool.false_eq_true] <;> rfl

/-- A read-modify-write that sets no flag (R168). -/
theorem modifyMemPlain_eq (x : Loc) (g : Byte → Byte) (n : Nat) (s : State) :
    modifyMemPlain x g n s =
      let a := locAddr x s
      if accepts s a then .next (advance n (stored a (g (peek s a)) (memRead a s).2))
      else raiseViolation .unmappedWrite a (g (peek s a)) (memRead a s).2 := by
  simp only [modifyMemPlain, memRead_fst, memWrite_eq, accepts_memRead]
  by_cases h : accepts s (locAddr x s) <;> simp only [h, if_true, if_false, Bool.false_eq_true] <;> rfl

/-- A push followed by `k` (R290), with the addresses of the state before it. -/
theorem push16_andThen (v : Word) (k : State → Out) (s : State) :
    andThen (push16 v s) k =
      andThen (memWrite (s.sp - 1) (hiByte v) s) fun t =>
        andThen (memWrite (s.sp - 2) (loByte v) t) fun t => k (setSp (s.sp - 2) t) := by
  rw [push16_eq, memWrite_eq]
  by_cases h : accepts s (s.sp - 1)
  · simp only [h, if_true, andThen_next, memWrite_eq, accepts_stored]
    by_cases h2 : accepts s (s.sp - 2)
    · simp only [h2, if_true, andThen_next]
    · simp only [h2, if_false, Bool.false_eq_true, raiseViolation, andThen_fault]
  · simp only [h, if_false, Bool.false_eq_true, raiseViolation, andThen_fault]

/-- A call (R278): pc is assigned after the push. -/
theorem callTo_eq (n : Nat) (target : Word) (s : State) :
    callTo n target s =
      let v := nextPc n s
      if accepts s (s.sp - 1) then
        (if accepts s (s.sp - 2) then
           .next (setPc target (setSp (s.sp - 2) (stored (s.sp - 2) (loByte v) (stored (s.sp - 1) (hiByte v) s))))
         else raiseViolation .unmappedWrite (s.sp - 2) (loByte v) (stored (s.sp - 1) (hiByte v) s))
      else raiseViolation .unmappedWrite (s.sp - 1) (hiByte v) s := by
  unfold callTo
  rw [push16_eq]
  split
  · split <;> rfl
  · rfl

/-- A return (R280). -/
theorem returnFrom_eq (s : State) :
    returnFrom s = .next (setPc (pop16 s).1 (pop16 s).2) := rfl

/-- The swap with the word at SP (R299): the register is assigned after both writes. -/
theorem exchangeSp_eq (v : Word) (set : Word → State → State) (n : Nat) (s : State) :
    exchangeSp v set n s =
      let t := (memRead2 s.sp s).2
      if accepts s s.sp then
        (if accepts s (s.sp + 1) then
           .next (advance n (set (memRead2 s.sp s).1 (stored (s.sp + 1) (hiByte v) (stored s.sp (loByte v) t))))
         else raiseViolation .unmappedWrite (s.sp + 1) (hiByte v) (stored s.sp (loByte v) t))
      else raiseViolation .unmappedWrite s.sp (loByte v) t := by
  have e : ∀ x, accepts (memRead2 s.sp s).2 x = accepts s x := fun _ => rfl
  have e' : (memRead2 s.sp s).2.sp = s.sp := rfl
  simp only [exchangeSp, memWrite2_eq, e, e']
  by_cases h : accepts s s.sp
  · by_cases h2 : accepts s (s.sp + 1) <;> simp only [h, h2, if_true, if_false, Bool.false_eq_true] <;> rfl
  · simp only [h, if_false, Bool.false_eq_true]
    rfl

/-- One iteration of a block transfer (R350). -/
theorem transferOnce_eq (step : Word) (s : State) :
    transferOnce step s =
      let t := (memRead (getHl s) s).2
      if accepts s (getDe s) then
        .next (setBc (getBc s - 1) (setDe (getDe s + step) (setHl (getHl s + step)
          (stored (getDe s) (peek s (getHl s)) t))))
      else raiseViolation .unmappedWrite (getDe s) (peek s (getHl s)) t := by
  have e : ∀ x, accepts (record (.memRead (getHl s) (peek s (getHl s))) s) x = accepts s x := fun _ => rfl
  simp only [transferOnce, memRead_fst, memRead_snd, getDe_record, memWrite_eq, e]
  split <;> rfl

/-- One iteration of a block compare changes only HL, BC and the history (R354). -/
theorem compareOnce_frame (step : Word) (s : State) :
    (compareOnce step s).2 = { s with
      b := hiByte (getBc s - 1), c := loByte (getBc s - 1)
      h := hiByte (getHl s + step), l := loByte (getHl s + step)
      history := .memRead (getHl s) (peek s (getHl s)) :: s.history } := rfl

/-- The fetch reads, in ascending order (R75). -/
theorem readFrom_history (n : Nat) (a : Word) (s : State) :
    (readFrom n a s).history =
      ((List.range n).map fun k =>
        Access.memRead (a + BitVec.ofNat 16 k) (peek s (a + BitVec.ofNat 16 k))).reverse ++ s.history := by
  induction n generalizing a s with
  | zero => rfl
  | succ n ih =>
    have shift : ∀ k : Nat, a + 1#16 + BitVec.ofNat 16 k = a + BitVec.ofNat 16 (k + 1) := by
      intro k
      bv_omega
    rw [readFrom, ih, List.range_succ_eq_map]
    simp only [memRead_snd, record, List.map_cons, List.map_map, List.reverse_cons, List.append_assoc,
      BitVec.ofNat_eq_ofNat, BitVec.add_zero, shift]
    rfl

end Sys2Proof.Machine
end

