-- ==== Sys2Proof/Tests/Slice0.lean ====
section
/-! SUPPORT. The tests: ill-formed terms, words of the spec's encodings, one or two steps' results for each
family from the test vectors of spec/95_test_vectors.md, and for every statement with hypotheses a theorem
showing that they can be met. -/

namespace Sys2Proof.Tests
open Sys2Proof Sys2Proof.Machine Sys2Proof.Claims

/-- Put bytes at an address upward. -/
def placed (addr : Word) : List Byte → State → State
  | [], s => s
  | v :: vs, s => placed (addr + 1) vs (placeByte addr v s)

/-- The state a step leaves, whatever its outcome. -/
def leaves : Out → Option State
  | .next t => some t
  | .fault (.unimplemented t) => some t
  | .fault (.contractViolation t) => some t
  | .refused _ => none

/-- One step of `s` with `code` at pc and the other cells in memory. -/
def ran (code : List Byte) (cells : List (Word × List Byte)) (s : State) : Option State :=
  leaves (step (cells.foldl (fun s c => placed c.1 c.2 s) (placed s.pc code s)))

/-- There is such a state, and it has the property. -/
def gives (o : Option State) (p : State → Bool) : Bool :=
  match o with
  | some t => p t
  | none => false

/-- The default platform with one address of kind `k`. -/
def kindAt (addr : Word) (k : MemKind) : Platform :=
  { Platform.default with regions := [{ first := addr.toNat, last := addr.toNat, kind := k }] }

/-- The reset state on a platform where `addr` rejects writes. -/
def guarded (addr : Word) : State := { State.reset with platform := kindAt addr (.fault false) }

/-! Well-formedness: JR encodes only NZ, Z, NC, C (R276); the four others are refused. -/

theorem test_wf_jr_po_refused : (Instr.jrCcE .po 0).wellFormed = false := by decide

theorem test_wf_jr_pe_refused : (Instr.jrCcE .pe 0).wellFormed = false := by decide

theorem test_wf_jr_p_refused : (Instr.jrCcE .p 0).wellFormed = false := by decide

theorem test_wf_jr_m_refused : (Instr.jrCcE .m 0).wellFormed = false := by decide

theorem test_wf_jr_c_admitted : (Instr.jrCcE .c 0).wellFormed = true := by decide

/-! Decoding: words written out bit by bit from the patterns of spec/30_encoding.md and the rules. -/

/-- LD r,r' is 01 ddd sss (R180): B is 000, A is 111. -/
theorem test_decode_ld_b_a : decode (windowOf [0b01000111]) = .ok (.ldRR .b .a) := by decide

/-- LD dd,nn is 00 pp0 001, low byte first (R194, R98): DE is 01. -/
theorem test_decode_ld_de_nn : decode (windowOf [0b00010001, 0x34, 0x12]) = .ok (.ldDdNn .de 0x1234) := by decide

/-- LD r,(IX+d) is 11 1 11101 under 0xFD for IY, 01 ttt 110, d (R185): L is 101. -/
theorem test_decode_ld_l_iy : decode (windowOf [0b11111101, 0b01101110, 0x80]) = .ok (.ldRMIdx .iy .l 0x80) := by
  decide

/-- SBC A,n is 11 011 110, n (R223). -/
theorem test_decode_sbc_n : decode (windowOf [0b11011110, 0x7F]) = .ok (.sbcAN 0x7F) := by decide

/-- XOR (HL) is 10 101 110 (R241). -/
theorem test_decode_xor_hl : decode (windowOf [0b10101110]) = .ok .xorMHl := by decide

/-- ADC HL,ss is 0xED, 01 pp1 010 (R233): SP is 11. -/
theorem test_decode_adc_hl_sp : decode (windowOf [0xED, 0b01111010]) = .ok (.adcHlSs .sp) := by decide

/-- ADD IX,pp is 0xDD, 00 pp1 001 (R232): code 10 is IX itself. -/
theorem test_decode_add_ix_ix : decode (windowOf [0xDD, 0b00101001]) = .ok (.addIdxPp .ix .idx) := by decide

/-- JR cc,e is 00 1cc 000, e (R276): C is 11. -/
theorem test_decode_jr_c : decode (windowOf [0b00111000, 0xFE]) = .ok (.jrCcE .c 0xFE) := by decide

/-- RST p is 11 ttt 111 (R282). -/
theorem test_decode_rst_28 : decode (windowOf [0b11101111]) = .ok (.rstP 5) := by decide

/-- POP qq is 11 pp0 001 (R293): AF is 11. -/
theorem test_decode_pop_af : decode (windowOf [0b11110001]) = .ok (.popQq .af) := by decide

/-- EX (SP),IY is 0xFD, 0xE3 (R300). -/
theorem test_decode_ex_sp_iy : decode (windowOf [0xFD, 0xE3]) = .ok (.exMSpIdx .iy) := by decide

/-- SRA r is 0xCB, 00 101 zzz (R320): D is 010. -/
theorem test_decode_sra_d : decode (windowOf [0xCB, 0b00101010]) = .ok (.sraR .d) := by decide

/-- RES b,(IX+d) is 0xDD, 0xCB, d, 10 bbb 110 (R338): the displacement comes before the opcode. -/
theorem test_decode_res_3_ix : decode (windowOf [0xDD, 0xCB, 0x12, 0b10011110]) = .ok (.resBMIdx 3 .ix 0x12) := by
  decide

/-- LDDR is 0xED, 0xB8 and CPIR 0xED, 0xB1 (R353, R356). -/
theorem test_decode_lddr_cpir :
    decode (windowOf [0xED, 0xB8]) = .ok .lddr ∧ decode (windowOf [0xED, 0xB1]) = .ok .cpir := by decide

/-- OUT (n),A is 0xD3, n and IM 1 is 0xED, 0x56 (R371, R374). -/
theorem test_decode_out_im1 :
    decode (windowOf [0xD3, 0xFE]) = .ok (.outMNA 0xFE) ∧ decode (windowOf [0xED, 0x56]) = .ok .im1 := by decide

/-- The words of the opcode table, byte 0 most significant (R110; log entry 9). -/
theorem test_table_words :
    decodeTableWord 16 0x0600 = some (.ldRN .b 0) ∧ decodeTableWord 24 0x320000 = some (.ldMNnA 0) ∧
    decodeTableWord 32 0xDDCB0006 = some (.rlcMIdx .ix 0) ∧ decodeTableWord 8 0x76 = none := by decide

/-- An instruction placed by withFetchWord is the one the next step runs. -/
theorem test_fetch_word_runs :
    gives (leaves (step (State.reset.withFetchWord 16 0x3E5A))) (fun t => t.a = 0x5A ∧ t.pc = 0x0002) := by decide

/-! The flag unit, from the tables V-FN of spec/95_test_vectors.md. -/

theorem test_fn_parity : parity 0x81 = true ∧ parity 0x7F = false ∧ parity 0xFE = false := by decide

theorem test_fn_sz53 : sz53 0x00 = 0x40 ∧ sz53 0xFF = 0xA8 ∧ sz53 0x28 = 0x28 := by decide

theorem test_fn_add8_carry_in : add8 0x0F 0x00 true = (0x10, 0x10) := by decide

theorem test_fn_sub8_borrow_in : sub8 0x00 0x00 true = (0xFF, 0xBB) := by decide

theorem test_fn_add16_keeps_z : add16 0xFFFF 0x0001 0xFF = (0x0000, 0xFD) := by decide

/-! One step each, from the vectors V-* of spec/95_test_vectors.md; the registers that a line does not give are
those of the reset state. -/

/-- V-LD-1 (R180): Scenario 1 of the document -/
theorem test_v_ld_1 :
  gives (ran [0x4D] [] { State.reset with c := 0x7B, l := 0x04, a := 0x00, f := 0x00 }) fun t =>
    t.c = 0x04 ∧ t.f = 0x00 ∧ t.pc = 0x0001 := by decide

/-- V-LD-7 (R182): LD H,(HL): address uses the old HL -/
theorem test_v_ld_7 :
  gives (ran [0x66] [(0x2000, [0x9C])] { State.reset with h := 0x20, l := 0x00 }) fun t =>
    t.h = 0x9C ∧ t.pc = 0x0001 := by decide

/-- V-LD-9 (R183): LD (HL),L stores the low byte of the address -/
theorem test_v_ld_9 :
  gives (ran [0x75] [] { State.reset with h := 0x21, l := 0x46 }) fun t =>
    t.pc = 0x0001 ∧ peek t 0x2146 = 0x46 := by decide

/-- V-LD-12 (R185): LD L,(IY-128): 0010h - 80h wraps to FF90h; L is loaded, not a half of IY -/
theorem test_v_ld_12 :
  gives (ran [0xFD, 0x6E, 0x80] [(0xFF90, [0xC3])] { State.reset with iy := 0x0010 }) fun t =>
    t.l = 0xC3 ∧ t.pc = 0x0003 := by decide

/-- V-LD-13 (R186): LD (IX-1),A: address wraps to FFFFh -/
theorem test_v_ld_13 :
  gives (ran [0xDD, 0x77, 0xFF] [] { State.reset with ix := 0x0000, a := 0x42 }) fun t =>
    t.pc = 0x0003 ∧ peek t 0xFFFF = 0x42 := by decide

/-- V-LD-15 (R187): LD (IX+5),n: d before n -/
theorem test_v_ld_15 :
  gives (ran [0xDD, 0x36, 0x05, 0x5A] [] { State.reset with ix := 0x219A }) fun t =>
    t.pc = 0x0004 ∧ peek t 0x219F = 0x5A := by decide

/-- V-LD-19 (R191): LD (DE),A -/
theorem test_v_ld_19 :
  gives (ran [0x12] [] { State.reset with d := 0x11, e := 0x28, a := 0xA0 }) fun t =>
    t.pc = 0x0001 ∧ peek t 0x1128 = 0xA0 := by decide

/-- V-LD-21 (R193): LD (nn),A -/
theorem test_v_ld_21 :
  gives (ran [0x32, 0x41, 0x31] [] { State.reset with a := 0xD7 }) fun t =>
    t.pc = 0x0003 ∧ peek t 0x3141 = 0xD7 := by decide

/-- V-LD-27 (R196): LD HL,(FFFFh): the high byte comes from 0000h -/
theorem test_v_ld_27 :
  gives (ran [0x2A, 0xFF, 0xFF] [(0xFFFF, [0x11]), (0x0000, [0x22])] { State.reset with pc := 0x0100 }) fun t =>
    t.h = 0x22 ∧ t.l = 0x11 ∧ t.pc = 0x0103 := by decide

/-- V-LD-28 (R198): LD BC,(nn) -/
theorem test_v_ld_28 :
  gives (ran [0xED, 0x4B, 0x30, 0x21] [(0x2130, [0x65, 0x78])] State.reset) fun t =>
    t.b = 0x78 ∧ t.c = 0x65 ∧ t.pc = 0x0004 := by decide

/-- V-LD-30 (R197): LD (nn),HL -/
theorem test_v_ld_30 :
  gives (ran [0x22, 0x29, 0xB2] [] { State.reset with h := 0x48, l := 0x3A }) fun t =>
    t.pc = 0x0003 ∧ peek t 0xB229 = 0x3A ∧ peek t 0xB22A = 0x48 := by decide

/-- V-LD-32 (R199): LD (FFFFh),SP: the high byte goes to 0000h -/
theorem test_v_ld_32 :
  gives (ran [0xED, 0x73, 0xFF, 0xFF] [] { State.reset with sp := 0xBEEF, pc := 0x0100 }) fun t =>
    t.pc = 0x0104 ∧ peek t 0xFFFF = 0xEF ∧ peek t 0x0000 = 0xBE := by decide

/-- V-LD-33 (R200): LD IX,(nn) -/
theorem test_v_ld_33 :
  gives (ran [0xDD, 0x2A, 0x66, 0x66] [(0x6666, [0x92, 0xDA])] State.reset) fun t =>
    t.ix = 0xDA92 ∧ t.pc = 0x0004 := by decide

/-- V-LD-35 (R202): LD SP,HL -/
theorem test_v_ld_35 :
  gives (ran [0xF9] [] { State.reset with h := 0x44, l := 0x2E }) fun t =>
    t.sp = 0x442E ∧ t.pc = 0x0001 := by decide

/-- V-ALU8-2 (R220): ADD A,A: 80h + 80h = 00h, Z, PV (overflow), C -/
theorem test_v_alu8_2 :
  gives (ran [0x87] [] { State.reset with a := 0x80, f := 0x00 }) fun t =>
    t.a = 0x00 ∧ t.f = 0x45 ∧ t.pc = 0x0001 := by decide

/-- V-ALU8-4 (R220): ADD A,n: FFh + 1 = 00h: Z, H, C, no overflow -/
theorem test_v_alu8_4 :
  gives (ran [0xC6, 0x01] [] { State.reset with a := 0xFF, f := 0x00 }) fun t =>
    t.a = 0x00 ∧ t.f = 0x51 ∧ t.pc = 0x0002 := by decide

/-- V-ALU8-6 (R220): ADD A,(IX+5): old C ignored -/
theorem test_v_alu8_6 :
  gives (ran [0xDD, 0x86, 0x05] [(0x1005, [0x22])] { State.reset with a := 0x11, ix := 0x1000, f := 0x01 }) fun t =>
    t.a = 0x33 ∧ t.f = 0x20 ∧ t.pc = 0x0003 := by decide

/-- V-ALU8-9 (R221): ADC: overflow caused by the carry in alone -/
theorem test_v_alu8_9 :
  gives (ran [0x88] [] { State.reset with a := 0x7F, b := 0x00, f := 0x01 }) fun t =>
    t.a = 0x80 ∧ t.f = 0x94 ∧ t.pc = 0x0001 := by decide

/-- V-ALU8-10 (R222): Scenario 3: the value is 9Ah; the document prints B2h (C1) -/
theorem test_v_alu8_10 :
  gives (ran [0x90] [] { State.reset with a := 0xF0, b := 0x21, f := 0x00 }) fun t =>
    t.a = 0xCF ∧ t.f = 0x9A ∧ t.pc = 0x0001 := by decide

/-- V-ALU8-16 (R223): SBC A,FFh with C = 1: 0 - FFh - 1 = 00h with borrow -/
theorem test_v_alu8_16 :
  gives (ran [0xDE, 0xFF] [] { State.reset with a := 0x00, f := 0x01 }) fun t =>
    t.f = 0x53 ∧ t.pc = 0x0002 := by decide

/-- V-ALU8-17 (R224): CP (HL): A unchanged; bits 5/3 from the difference 03h -/
theorem test_v_alu8_17 :
  gives (ran [0xBE] [(0x6000, [0x60])] { State.reset with a := 0x63, h := 0x60, l := 0x00, f := 0x00 }) fun t =>
    t.f = 0x02 ∧ t.pc = 0x0001 := by decide

/-- V-ALU8-19 (R224): CP n: 7Fh - 80h = FFh: S, PV, C -/
theorem test_v_alu8_19 :
  gives (ran [0xFE, 0x80] [] { State.reset with a := 0x7F, f := 0x00 }) fun t =>
    t.f = 0xAF ∧ t.pc = 0x0002 := by decide

/-- V-ALU8-22 (R225): INC B: FFh to 00h: Z, H; C not set -/
theorem test_v_alu8_22 :
  gives (ran [0x04] [] { State.reset with b := 0xFF, f := 0x00 }) fun t =>
    t.b = 0x00 ∧ t.f = 0x50 ∧ t.pc = 0x0001 := by decide

/-- V-ALU8-25 (R227): INC (IX+10h) -/
theorem test_v_alu8_25 :
  gives (ran [0xDD, 0x34, 0x10] [(0x2030, [0x34])] { State.reset with ix := 0x2020, f := 0x01 }) fun t =>
    t.f = 0x21 ∧ t.pc = 0x0003 ∧ peek t 0x2030 = 0x35 := by decide

/-- V-ALU8-28 (R228): DEC C: 00h to FFh; C flag not set -/
theorem test_v_alu8_28 :
  gives (ran [0x0D] [] { State.reset with c := 0x00, f := 0x00 }) fun t =>
    t.c = 0xFF ∧ t.f = 0xBA ∧ t.pc = 0x0001 := by decide

/-- V-ALU8-32 (R239): AND n: zero result: Z, H, PV -/
theorem test_v_alu8_32 :
  gives (ran [0xE6, 0x0F] [] { State.reset with a := 0xF0, f := 0xFF }) fun t =>
    t.a = 0x00 ∧ t.f = 0x54 ∧ t.pc = 0x0002 := by decide

/-- V-ALU8-39 (R241): XOR (HL) -/
theorem test_v_alu8_39 :
  gives (ran [0xAE] [(0x1234, [0x0F])] { State.reset with a := 0xFF, h := 0x12, l := 0x34, f := 0x00 }) fun t =>
    t.a = 0xF0 ∧ t.f = 0xA4 ∧ t.pc = 0x0001 := by decide

/-- V-ALU8-41 (R242): Scenario 2: the value is 1Ah; the document prints 12h (C2) -/
theorem test_v_alu8_41 :
  gives (ran [0x2F] [] { State.reset with a := 0xF0, f := 0x00 }) fun t =>
    t.a = 0x0F ∧ t.f = 0x1A ∧ t.pc = 0x0001 := by decide

/-- V-ALU16-2 (R231): ADD HL,HL: carry; S, Z, PV kept; bits 5/3 kept -/
theorem test_v_alu16_2 :
  gives (ran [0x29] [] { State.reset with h := 0x80, l := 0x00, f := 0xC4 }) fun t =>
    t.h = 0x00 ∧ t.f = 0xC5 ∧ t.pc = 0x0001 := by decide

/-- V-ALU16-6 (R232): ADD IX,IX (code 2 is IX, not HL) -/
theorem test_v_alu16_6 :
  gives (ran [0xDD, 0x29] [] { State.reset with ix := 0x8800, h := 0x11, l := 0x11, f := 0x00 }) fun t =>
    t.ix = 0x1000 ∧ t.f = 0x11 ∧ t.pc = 0x0002 := by decide

/-- V-ALU16-10 (R233): FFFFh + 0 + 1 = 0000h: Z, H, C -/
theorem test_v_alu16_10 :
  gives (ran [0xED, 0x5A] [] { State.reset with h := 0xFF, l := 0xFF, d := 0x00, e := 0x00, f := 0x01 }) fun t =>
    t.h = 0x00 ∧ t.l = 0x00 ∧ t.f = 0x51 ∧ t.pc = 0x0002 := by decide

/-- V-ALU16-17 (R234): 0 - 1: S, H, N, C -/
theorem test_v_alu16_17 :
  gives (ran [0xED, 0x72] [] { State.reset with h := 0x00, l := 0x00, sp := 0x0001, f := 0x00 }) fun t =>
    t.h = 0xFF ∧ t.l = 0xFF ∧ t.f = 0xBB ∧ t.pc = 0x0002 := by decide

/-- V-ALU16-18 (R235): INC HL wraps; no flag -/
theorem test_v_alu16_18 :
  gives (ran [0x23] [] { State.reset with h := 0xFF, l := 0xFF, f := 0xA5 }) fun t =>
    t.h = 0x00 ∧ t.l = 0x00 ∧ t.f = 0xA5 ∧ t.pc = 0x0001 := by decide

/-- V-ALU16-21 (R236): DEC DE wraps; no flag -/
theorem test_v_alu16_21 :
  gives (ran [0x1B] [] { State.reset with d := 0x00, e := 0x00, f := 0x00 }) fun t =>
    t.d = 0xFF ∧ t.e = 0xFF ∧ t.f = 0x00 ∧ t.pc = 0x0001 := by decide

/-- V-ALU16-25 (R238): DEC IX wraps -/
theorem test_v_alu16_25 :
  gives (ran [0xDD, 0x2B] [] { State.reset with ix := 0x0000 }) fun t =>
    t.ix = 0xFFFF ∧ t.pc = 0x0002 := by decide

/-- V-JMP-5 (R272): JP NC not taken -/
theorem test_v_jmp_5 :
  gives (ran [0xD2, 0x00, 0x80] [] { State.reset with f := 0x01 }) fun t =>
    t.f = 0x01 ∧ t.pc = 0x0003 := by decide

/-- V-JMP-11 (R273): JP (HL): no memory read -/
theorem test_v_jmp_11 :
  gives (ran [0xE9] [] { State.reset with h := 0x48, l := 0x00 }) fun t =>
    t.pc = 0x4800 := by decide

/-- V-JMP-16 (R275): JR -128 from 0000h: 0002h - 80h wraps to FF82h -/
theorem test_v_jmp_16 :
  gives (ran [0x18, 0x80] [] State.reset) fun t =>
    t.pc = 0xFF82 := by decide

/-- V-JMP-20 (R276): JR C taken, backwards -/
theorem test_v_jmp_20 :
  gives (ran [0x38, 0xFC] [] { State.reset with f := 0x01, pc := 0x0200 }) fun t =>
    t.f = 0x01 ∧ t.pc = 0x01FE := by decide

/-- V-JMP-24 (R277): DJNZ with B = 0: B = FFh, taken (256 passes) -/
theorem test_v_jmp_24 :
  gives (ran [0x10, 0x10] [] { State.reset with b := 0x00, f := 0x00, pc := 0x0300 }) fun t =>
    t.b = 0xFF ∧ t.f = 0x00 ∧ t.pc = 0x0312 := by decide

/-- V-JMP-26 (R278): CALL across the top: return address 0001h; pushes at 0000h and FFFFh; the push -/
theorem test_v_jmp_26 :
  gives (ran [0xCD, 0x00, 0x50] [] { State.reset with sp := 0x0001, pc := 0xFFFE }) fun t =>
    t.sp = 0xFFFF ∧ t.pc = 0x5000 ∧ peek t 0x0000 = 0x00 ∧ peek t 0xFFFF = 0x01 := by decide

/-- V-JMP-28 (R279): CALL NZ not taken: no push -/
theorem test_v_jmp_28 :
  gives (ran [0xC4, 0x00, 0x50] [] { State.reset with sp := 0x8000, f := 0x40, pc := 0x0100 }) fun t =>
    t.f = 0x40 ∧ t.pc = 0x0103 := by decide

/-- V-JMP-31 (R280): RET with SP = FFFFh: high byte from 0000h; SP wraps to 0001h -/
theorem test_v_jmp_31 :
  gives (ran [0xC9] [(0xFFFF, [0x34]), (0x0000, [0x12])] { State.reset with sp := 0xFFFF, pc := 0x0010 }) fun t =>
    t.sp = 0x0001 ∧ t.pc = 0x1234 := by decide

/-- V-JMP-37 (R282): RST 28h at FFFFh: pushes 0000h -/
theorem test_v_jmp_37 :
  gives (ran [0xEF] [] { State.reset with sp := 0x8000, pc := 0xFFFF }) fun t =>
    t.sp = 0x7FFE ∧ t.pc = 0x0028 ∧ peek t 0x7FFF = 0x00 ∧ peek t 0x7FFE = 0x00 := by decide

/-- V-STK-2 (R292): PUSH AF: A high, F low; F not changed -/
theorem test_v_stk_2 :
  gives (ran [0xF5] [] { State.reset with sp := 0x2000, a := 0x12, f := 0x34 }) fun t =>
    t.sp = 0x1FFE ∧ t.f = 0x34 ∧ t.pc = 0x0001 ∧ peek t 0x1FFF = 0x12 ∧ peek t 0x1FFE = 0x34 := by decide

/-- V-STK-3 (R292): PUSH HL across 0000h: high byte at 0000h, low at FFFFh -/
theorem test_v_stk_3 :
  gives (ran [0xE5] [] { State.reset with sp := 0x0001, h := 0xAB, l := 0xCD, pc := 0x0100 }) fun t =>
    t.sp = 0xFFFF ∧ t.pc = 0x0101 ∧ peek t 0x0000 = 0xAB ∧ peek t 0xFFFF = 0xCD := by decide

/-- V-STK-6 (R293): POP AF with SP = FFFFh -/
theorem test_v_stk_6 :
  gives (ran [0xF1] [(0xFFFF, [0xD7]), (0x0000, [0x9A])] { State.reset with sp := 0xFFFF, pc := 0x0100 }) fun t =>
    t.a = 0x9A ∧ t.sp = 0x0001 ∧ t.f = 0xD7 ∧ t.pc = 0x0101 := by decide

/-- V-STK-7 (R294): PUSH IX -/
theorem test_v_stk_7 :
  gives (ran [0xDD, 0xE5] [] { State.reset with sp := 0x8000, ix := 0x1234 }) fun t =>
    t.sp = 0x7FFE ∧ t.pc = 0x0002 ∧ peek t 0x7FFF = 0x12 ∧ peek t 0x7FFE = 0x34 := by decide

/-- V-STK-12 (R296): EX DE,HL -/
theorem test_v_stk_12 :
  gives (ran [0xEB] [] { State.reset with d := 0x28, e := 0x22, h := 0x49, l := 0x9A, f := 0x5A }) fun t =>
    t.d = 0x49 ∧ t.e = 0x9A ∧ t.h = 0x28 ∧ t.l = 0x22 ∧ t.f = 0x5A ∧ t.pc = 0x0001 := by decide

/-- V-STK-13 (R297): EX AF,AF': F visibly changes -/
theorem test_v_stk_13 :
  gives (ran [0x08] [] { State.reset with a := 0x99, f := 0x00, a' := 0x59, f' := 0x44 }) fun t =>
    t.a = 0x59 ∧ t.a' = 0x99 ∧ t.f' = 0x00 ∧ t.f = 0x44 ∧ t.pc = 0x0001 := by decide

/-- V-STK-15 (R298): EXX: AF and AF' not touched -/
theorem test_v_stk_15 :
  gives (ran [0xD9] []
    { State.reset with
      b := 0x44, c := 0x5A, d := 0x3D, e := 0xA2, h := 0x88, l := 0x59, a := 0x11, f := 0x22
      b' := 0x09, c' := 0x88, d' := 0x93, e' := 0x00, h' := 0x00, l' := 0xE7, a' := 0x77, f' := 0x66 }) fun t =>
    t.b = 0x09 ∧ t.c = 0x88 ∧ t.d = 0x93 ∧ t.e = 0x00 ∧ t.h = 0x00 ∧ t.l = 0xE7 ∧ t.b' = 0x44 ∧ t.c' = 0x5A ∧
    t.d' = 0x3D ∧ t.e' = 0xA2 ∧ t.h' = 0x88 ∧ t.l' = 0x59 ∧ t.f = 0x22 ∧ t.pc = 0x0001 := by decide

/-- V-STK-17 (R299): EX (SP),HL with SP = FFFFh -/
theorem test_v_stk_17 :
  gives (ran [0xE3] [(0xFFFF, [0xAA]), (0x0000, [0xBB])]
    { State.reset with sp := 0xFFFF, h := 0x12, l := 0x34, pc := 0x0100 }) fun t =>
    t.h = 0xBB ∧ t.l = 0xAA ∧ t.pc = 0x0101 ∧ peek t 0xFFFF = 0x34 ∧ peek t 0x0000 = 0x12 := by decide

/-- V-ROT-2 (R310): RLCA: S, Z, PV, 5, 3 kept; H, N cleared -/
theorem test_v_rot_2 :
  gives (ran [0x07] [] { State.reset with a := 0x88, f := 0xFE }) fun t =>
    t.a = 0x11 ∧ t.f = 0xED ∧ t.pc = 0x0001 := by decide

/-- V-ROT-5 (R312): RLA: old C enters bit 0 -/
theorem test_v_rot_5 :
  gives (ran [0x17] [] { State.reset with a := 0x76, f := 0x01 }) fun t =>
    t.a = 0xED ∧ t.f = 0x00 ∧ t.pc = 0x0001 := by decide

/-- V-ROT-8 (R313): RRA: old C enters bit 7 -/
theorem test_v_rot_8 :
  gives (ran [0x1F] [] { State.reset with a := 0x00, f := 0xD7 }) fun t =>
    t.a = 0x80 ∧ t.f = 0xC4 ∧ t.pc = 0x0001 := by decide

/-- V-ROT-9 (R315): RLC B -/
theorem test_v_rot_9 :
  gives (ran [0xCB, 0x00] [] { State.reset with b := 0x88, f := 0x00 }) fun t =>
    t.b = 0x11 ∧ t.f = 0x05 ∧ t.pc = 0x0002 := by decide

/-- V-ROT-12 (R317): RL D -/
theorem test_v_rot_12 :
  gives (ran [0xCB, 0x12] [] { State.reset with d := 0x8F, f := 0x00 }) fun t =>
    t.d = 0x1E ∧ t.f = 0x0D ∧ t.pc = 0x0002 := by decide

/-- V-ROT-17 (R319): SLA A: zero result -/
theorem test_v_rot_17 :
  gives (ran [0xCB, 0x27] [] { State.reset with a := 0x80, f := 0xFF }) fun t =>
    t.a = 0x00 ∧ t.f = 0x45 ∧ t.pc = 0x0002 := by decide

/-- V-ROT-18 (R320): SRA H: sign kept -/
theorem test_v_rot_18 :
  gives (ran [0xCB, 0x2C] [] { State.reset with h := 0xB8, f := 0x00 }) fun t =>
    t.h = 0xDC ∧ t.f = 0x88 ∧ t.pc = 0x0002 := by decide

/-- V-ROT-20 (R321): SLL C: 1 enters bit 0 -/
theorem test_v_rot_20 :
  gives (ran [0xCB, 0x31] [] { State.reset with c := 0xB1, f := 0x00 }) fun t =>
    t.c = 0x63 ∧ t.f = 0x25 ∧ t.pc = 0x0002 := by decide

/-- V-ROT-26 (R315): RLC (IX+2) -/
theorem test_v_rot_26 :
  gives (ran [0xDD, 0xCB, 0x02, 0x06] [(0x2022, [0x88])] { State.reset with ix := 0x2020, f := 0x00 }) fun t =>
    t.f = 0x05 ∧ t.pc = 0x0004 ∧ peek t 0x2022 = 0x11 := by decide

/-- V-BIT-1 (R330): Scenario 5: the value is 38h; the document prints 10h (C3) -/
theorem test_v_bit_1 :
  gives (ran [0xCB, 0x41] [] { State.reset with c := 0xFF, f := 0x00 }) fun t =>
    t.f = 0x38 ∧ t.pc = 0x0002 := by decide

/-- V-BIT-3 (R330): BIT 7,A clear: Z, PV; bits 5/3 from A -/
theorem test_v_bit_3 :
  gives (ran [0xCB, 0x7F] [] { State.reset with a := 0x7F, f := 0x00 }) fun t =>
    t.f = 0x7C ∧ t.pc = 0x0002 := by decide

/-- V-BIT-6 (R331): BIT 0,(HL) -/
theorem test_v_bit_6 :
  gives (ran [0xCB, 0x46] [(0x4444, [0xFE])] { State.reset with h := 0x44, l := 0x44, f := 0x01 }) fun t =>
    t.f = 0x7D ∧ t.pc = 0x0002 := by decide

/-- V-BIT-9 (R332): BIT 1,(IY-4) -/
theorem test_v_bit_9 :
  gives (ran [0xFD, 0xCB, 0xFC, 0x4E] [(0x1FFC, [0x00])] { State.reset with iy := 0x2000, f := 0x01 }) fun t =>
    t.f = 0x55 ∧ t.pc = 0x0004 := by decide

/-- V-BIT-13 (R334): SET 4,(HL) when already set: the write still happens -/
theorem test_v_bit_13 :
  gives (ran [0xCB, 0xE6] [(0x3000, [0x10])] { State.reset with h := 0x30, l := 0x00, f := 0x12 }) fun t =>
    t.f = 0x12 ∧ t.pc = 0x0002 ∧ peek t 0x3000 = 0x10 := by decide

/-- V-BIT-14 (R335): SET 0,(IX+3) -/
theorem test_v_bit_14 :
  gives (ran [0xDD, 0xCB, 0x03, 0xC6] [(0x2003, [0xF0])] { State.reset with ix := 0x2000 }) fun t =>
    t.pc = 0x0004 ∧ peek t 0x2003 = 0xF1 := by decide

/-- V-BIT-16 (R336): RES 6,D -/
theorem test_v_bit_16 :
  gives (ran [0xCB, 0xB2] [] { State.reset with d := 0x40, f := 0x00 }) fun t =>
    t.d = 0x00 ∧ t.f = 0x00 ∧ t.pc = 0x0002 := by decide

/-- V-BIT-18 (R338): RES 3,(IY-128) -/
theorem test_v_bit_18 :
  gives (ran [0xFD, 0xCB, 0x80, 0x9E] [(0x2000, [0x0F])] { State.reset with iy := 0x2080 }) fun t =>
    t.pc = 0x0004 ∧ peek t 0x2000 = 0x07 := by decide

/-- V-BLK-1 (R350): LDI: PV = 1 (BC = 6); H, N cleared; S, Z, C, 5, 3 kept -/
theorem test_v_blk_1 :
  gives (ran [0xED, 0xA0] [(0x1111, [0x88]), (0x2222, [0x66])]
    { State.reset with h := 0x11, l := 0x11, d := 0x22, e := 0x22, b := 0x00, c := 0x07, f := 0xFF }) fun t =>
    t.c = 0x06 ∧ t.e = 0x23 ∧ t.l = 0x12 ∧ t.f = 0xED ∧ t.pc = 0x0002 ∧ peek t 0x2222 = 0x88 := by decide

/-- V-BLK-4 (R351): LDD -/
theorem test_v_blk_4 :
  gives (ran [0xED, 0xA8] [(0x1111, [0x88]), (0x2222, [0x66])]
    { State.reset with h := 0x11, l := 0x11, d := 0x22, e := 0x22, b := 0x00, c := 0x07, f := 0x13 }) fun t =>
    t.c = 0x06 ∧ t.e = 0x21 ∧ t.l = 0x10 ∧ t.f = 0x05 ∧ t.pc = 0x0002 ∧ peek t 0x2222 = 0x88 := by decide

/-- V-BLK-6 (R352): LDIR overlapping forward: the first byte is propagated (fill) -/
theorem test_v_blk_6 :
  gives (ran [0xED, 0xB0] [(0x1000, [0xAA, 0x01, 0x02, 0x03, 0x04])]
    { State.reset with
      h := 0x10, l := 0x00, d := 0x10, e := 0x01, b := 0x00, c := 0x04, f := 0x00, pc := 0x0100 }) fun t =>
    t.c = 0x00 ∧ t.e = 0x05 ∧ t.l = 0x04 ∧ t.f = 0x00 ∧ t.pc = 0x0102 ∧ peek t 0x1001 = 0xAA ∧
    peek t 0x1002 = 0xAA ∧ peek t 0x1003 = 0xAA ∧ peek t 0x1004 = 0xAA := by decide

/-- V-BLK-7 (R353): LDDR -/
theorem test_v_blk_7 :
  gives (ran [0xED, 0xB8] [(0x1112, [0x88, 0x36, 0xA5]), (0x2223, [0x96, 0x59, 0xC5])]
    { State.reset with h := 0x11, l := 0x14, d := 0x22, e := 0x25, b := 0x00, c := 0x03, f := 0x00 }) fun t =>
    t.c = 0x00 ∧ t.e = 0x22 ∧ t.l = 0x11 ∧ t.f = 0x00 ∧ t.pc = 0x0002 ∧ peek t 0x2225 = 0xA5 ∧
    peek t 0x2224 = 0x36 ∧ peek t 0x2223 = 0x88 := by decide

/-- V-BLK-9 (R354): CPI, no match: 3Bh - 3Ch = FFh: S, H, N, PV; bits 5/3 from FFh; C not set -/
theorem test_v_blk_9 :
  gives (ran [0xED, 0xA1] [(0x1111, [0x3C])]
    { State.reset with a := 0x3B, h := 0x11, l := 0x11, b := 0x00, c := 0x06, f := 0x00 }) fun t =>
    t.c = 0x05 ∧ t.l = 0x12 ∧ t.f = 0xBE ∧ t.pc = 0x0002 := by decide

/-- V-BLK-11 (R355): CPD: HL wraps to FFFFh, BC to FFFFh -/
theorem test_v_blk_11 :
  gives (ran [0xED, 0xA9] [(0x0000, [0x01])]
    { State.reset with a := 0x10, h := 0x00, l := 0x00, b := 0x00, c := 0x00, f := 0x01, pc := 0x0100 }) fun t =>
    t.b = 0xFF ∧ t.c = 0xFF ∧ t.h = 0xFF ∧ t.l = 0xFF ∧ t.f = 0x1F ∧ t.pc = 0x0102 := by decide

/-- V-BLK-12 (R356): CPIR finds the third byte: Z, PV = 1 (BC = 4) -/
theorem test_v_blk_12 :
  gives (ran [0xED, 0xB1] [(0x1111, [0x52, 0x00, 0xF3])]
    { State.reset with a := 0xF3, h := 0x11, l := 0x11, b := 0x00, c := 0x07, f := 0x00 }) fun t =>
    t.c = 0x04 ∧ t.l = 0x14 ∧ t.f = 0x46 ∧ t.pc = 0x0002 := by decide

/-- V-SYS-3 (R371): OUT (n),A -/
theorem test_v_sys_3 :
  gives (ran [0xD3, 0x01] [] { State.reset with a := 0x23 }) fun t =>
    t.pc = 0x0002 ∧ t.history.head? = some (.ioWrite 0x01 0x23) := by decide

/-- V-SYS-4 (R372): DI after reset -/
theorem test_v_sys_4 :
  gives (ran [0xF3] [] State.reset) fun t =>
    t.iff = false ∧ t.pc = 0x0001 := by decide

/-- V-SYS-5 (R373): EI: immediate -/
theorem test_v_sys_5 :
  gives (ran [0xFB] [] { State.reset with iff := false }) fun t =>
    t.iff = true ∧ t.pc = 0x0001 := by decide

/-- V-SYS-7 (R374): IM 1 -/
theorem test_v_sys_7 :
  gives (ran [0xED, 0x56] [] State.reset) fun t =>
    t.im = .mode1 ∧ t.pc = 0x0002 := by decide

/-- V-FLT-1 (R401): HALT is not admitted: 1 byte fetched, nothing changes -/
theorem test_v_flt_1 :
  gives (ran [0x76] [] { State.reset with a := 0x12, pc := 0x0200 }) fun t =>
    t.fault = .unimplemented 0x0200 [0x76] ∧ t.pc = 0x0200 := by decide

/-- V-FLT-13 (R401): prefix before NOP: not ignored -/
theorem test_v_flt_13 :
  gives (ran [0xDD, 0x00] [] State.reset) fun t =>
    t.fault = .unimplemented 0x0000 [0xDD, 0x00] ∧ t.pc = 0x0000 := by decide

/-- V-FLT-17 (R401): RLC (IX+5) with copy to B: 4 bytes fetched, not admitted -/
theorem test_v_flt_17 :
  gives (ran [0xDD, 0xCB, 0x05, 0x00] [] { State.reset with ix := 0x2000 }) fun t =>
    t.fault = .unimplemented 0x0000 [0xDD, 0xCB, 0x05, 0x00] ∧ t.pc = 0x0000 := by decide

/-! A rejected write (V-CV-* of spec/95_test_vectors.md): what was done before it stands, nothing after it. -/

/-- V-CV-1 (R292): the high byte is written before the rejected low byte. -/
theorem test_cv_1 :
  gives (ran [0xC5] [] { guarded 0x7FFE with sp := 0x8000, b := 0x12, c := 0x34 }) fun t =>
    peek t 0x7FFF = 0x12 ∧ t.sp = 0x8000 ∧ t.pc = 0 ∧
    t.fault = .contractViolation 0 .unmappedWrite 0x7FFE 0x34 := by decide

/-- V-CV-3 (R226): F is written after the rejected write, so it stays; the read returned EE. -/
theorem test_cv_3 :
  gives (ran [0x34] [] { guarded 0x6000 with h := 0x60, l := 0x00, f := 0x00 }) fun t =>
    t.f = 0x00 ∧ t.pc = 0 ∧ t.fault = .contractViolation 0 .unmappedWrite 0x6000 0xEF := by decide

/-- V-CV-4 (R197): the low byte has been stored. -/
theorem test_cv_4 :
  gives (ran [0x22, 0xFF, 0x5F] [] { guarded 0x6000 with h := 0xAB, l := 0xCD }) fun t =>
    peek t 0x5FFF = 0xCD ∧ t.fault = .contractViolation 0 .unmappedWrite 0x6000 0xAB := by decide

/-- V-CV-5 (R352): two whole iterations before the rejected write. -/
theorem test_cv_5 :
  gives (ran [0xED, 0xB0] [(0x1000, [1, 2, 3, 4, 5])]
    { guarded 0x6002 with
      h := 0x10, l := 0x00, d := 0x60, e := 0x00, b := 0x00, c := 0x05 }) fun t =>
    peek t 0x6001 = 2 ∧ getHl t = 0x1002 ∧ getDe t = 0x6002 ∧ getBc t = 3 ∧ t.f = 0xFF ∧ t.pc = 0 := by decide

/-- V-CV-6 (R299): HL is assigned after both writes, so it stays. -/
theorem test_cv_6 :
  gives (ran [0xE3] [(0x8000, [0x11])] { guarded 0x8001 with sp := 0x8000, h := 0x70, l := 0x12 }) fun t =>
    peek t 0x8000 = 0x12 ∧ getHl t = 0x7012 ∧ t.pc = 0 := by decide

/-- V-CV-9 (R183, R63): a write to an `ignore` address completes and stores nothing. -/
theorem test_cv_9 :
  gives (ran [0x77] []
    { State.reset with platform := kindAt 0x6000 (.ignore false), h := 0x60, l := 0x00, a := 0x12 }) fun t =>
    peek t 0x6000 = 0xEE ∧ t.fault = .none ∧ t.pc = 1 := by decide

/-! What the hypotheses of the statements allow: for each statement with hypotheses, and each of its clauses, a
state and operands that meet them, at the ends of their ranges where they have ends. -/

theorem test_hyp_DecodingAnEncodingGivesItBack : (Instr.jrCcE .c 0xFF).wellFormed = true := by decide

theorem test_hyp_DecodedBytesAreTheEncoding :
    decode { b0 := 0xFD, b1 := 0xCB, b2 := 0xFF, b3 := 0xFE } = .ok (.setBMIdx 7 .iy 0xFF) := by decide

theorem test_hyp_StepRunsTheDecodedInstruction :
    let s := placed 0xFFFF [0xED, 0xB0] { State.reset with pc := 0xFFFF }
    s.fault = .none ∧
    decode { b0 := peek s s.pc, b1 := peek s (s.pc + 1), b2 := peek s (s.pc + 2), b3 := peek s (s.pc + 3) }
      = .ok .ldir := by decide

theorem test_hyp_Unimplemented_main :
    let s := placed 0 [0x76] State.reset
    s.fault = .none ∧ notAdmitted
      { b0 := peek s s.pc, b1 := peek s (s.pc + 1), b2 := peek s (s.pc + 2), b3 := peek s (s.pc + 3) } [0x76] := by
  unfold notAdmitted; decide

theorem test_hyp_Unimplemented_ed :
    let s := placed 0 [0xED, 0xFF] State.reset
    s.fault = .none ∧ notAdmitted
      { b0 := peek s s.pc, b1 := peek s (s.pc + 1), b2 := peek s (s.pc + 2), b3 := peek s (s.pc + 3) }
      [0xED, 0xFF] := by
  unfold notAdmitted; decide

theorem test_hyp_Unimplemented_index :
    let s := placed 0 [0xFD, 0x00] State.reset
    s.fault = .none ∧ notAdmitted
      { b0 := peek s s.pc, b1 := peek s (s.pc + 1), b2 := peek s (s.pc + 2), b3 := peek s (s.pc + 3) }
      [0xFD, 0x00] := by
  unfold notAdmitted; decide

theorem test_hyp_Unimplemented_index_cb :
    let s := placed 0 [0xDD, 0xCB, 0x00, 0xFF] State.reset
    s.fault = .none ∧ notAdmitted
      { b0 := peek s s.pc, b1 := peek s (s.pc + 1), b2 := peek s (s.pc + 2), b3 := peek s (s.pc + 3) }
      [0xDD, 0xCB, 0x00, 0xFF] := by
  unfold notAdmitted; decide

theorem test_hyp_FaultedCoreDoesNotStep :
    ({ State.reset with fault := .unimplemented 0 [0x76] } : State).fault ≠ .none := by decide

/-- V-FN-9 and V-FN-11. -/
theorem test_hyp_AddFlags : add8 0x80 0x80 false = (0x00, 0x45) ∧ add8 0xFF 0xFF true = (0xFF, 0xB9) := by decide

/-- V-FN-16 and V-FN-17. -/
theorem test_hyp_SubtractFlags : sub8 0x00 0xFF true = (0x00, 0x53) ∧ sub8 0x7F 0x80 false = (0xFF, 0xAF) := by
  decide

/-- The examples of R135 and R136. -/
theorem test_hyp_IncrementAndDecrementFlags : inc8 0xFF 0x01 = (0x00, 0x51) ∧ dec8 0x80 0x00 = (0x7F, 0x3E) := by
  decide

/-- The example and the corner cases of R137. -/
theorem test_hyp_LogicFlags :
    logic8 .and 0xF0 0x3C = (0x30, 0x34) ∧ logic8 .or 0xFF 0x00 = (0xFF, 0xAC) ∧
    logic8 .xor 0x55 0x55 = (0x00, 0x44) := by decide

/-- V-FN-21. -/
theorem test_hyp_AddWordFlags : add16 0x0FFF 0x0001 0x00 = (0x1000, 0x10) := by decide

/-- V-ALU16-10 and V-ALU16-16. -/
theorem test_hyp_AddAndSubtractWordWithCarry :
    adc16 0xFFFF 0x0000 true = (0x0000, 0x51) ∧ sbc16 0x8000 0x0001 false = (0x7FFF, 0x3E) := by decide

/-- V-ROT-2 and V-ROT-10. -/
theorem test_hyp_RotateFlags : rotAFlags true 0xFE = 0xED ∧ rotFlags 0x00 false = 0x44 := by decide

theorem test_hyp_ShiftFunction :
    (ShiftOp.sll = .rlc ∨ ShiftOp.sll = .rl ∨ ShiftOp.sll = .sla ∨ ShiftOp.sll = .sll) ∧
    (ShiftOp.srl = .rrc ∨ ShiftOp.srl = .rr ∨ ShiftOp.srl = .sra ∨ ShiftOp.srl = .srl) := by decide

/-- The corner cases of R143, the example of R144, and that of R145 with its subtraction. -/
theorem test_hyp_BitTestAndBlockFlags :
    bitFlags 7 0x80 0x01 = 0x91 ∧ ldblockFlags 0x0000 0xFF = 0xE9 ∧
    sub8 0x3B 0x3C false = (0xFF, 0xBB) ∧ cpblockFlags 0x3B 0x3C 0x0005 0x00 = 0xBE := by decide

theorem test_hyp_WriteF_result : State.reset.platform.xyPolicy = .result := by decide

theorem test_hyp_WriteF_draw :
    ({ State.reset with platform := { Platform.default with xyPolicy := .draw } } : State).platform.xyPolicy
      = .draw := by decide

theorem test_hyp_MemoryKeeps_ram : memKind State.reset 0xFFFF = .ram := by decide

theorem test_hyp_MemoryKeeps_rom :
    memKind { State.reset with platform := kindAt 0xFFFF (.ignore true) } 0xFFFF = .ignore true ∧
    memKind { State.reset with platform := kindAt 0x0000 (.fault true) } 0x0000 = .fault true := by decide

theorem test_hyp_MemoryKeeps_unmapped :
    memKind { State.reset with platform := kindAt 0xFFFF (.ignore false) } 0xFFFF = .ignore false ∧
    memKind { State.reset with platform := kindAt 0x0000 (.fault false) } 0x0000 = .fault false := by decide

/-- The three cases of every push, also of CALL and RST, at SP = 0001h: 0000h is written first, then FFFFh. -/
theorem test_hyp_pushes :
    (let s := { State.reset with sp := 0x0001 }; accepts s (s.sp - 1) = true ∧ accepts s (s.sp - 2) = true) ∧
    (let s := { guarded 0x0000 with sp := 0x0001 }; accepts s (s.sp - 1) = false) ∧
    (let s := { guarded 0xFFFF with sp := 0x0001 }
     accepts s (s.sp - 1) = true ∧ accepts s (s.sp - 2) = false) := by decide

theorem test_hyp_PopUndoesPush :
    let s := { State.reset with sp := 0x0000 }
    memKind s (s.sp - 1) = .ram ∧ memKind s (s.sp - 2) = .ram := by decide

/-- The two cases of every one-byte store: LD, INC and DEC, the rotates and shifts, SET and RES, LDI and LDD. -/
theorem test_hyp_storesByte :
    accepts State.reset 0xFFFF = true ∧ accepts (guarded 0xFFFF) 0xFFFF = false := by decide

/-- The three cases of LD (nn),HL and its relatives and of EX (SP),HL, at the address FFFFh. -/
theorem test_hyp_storesTwo :
    (accepts State.reset 0xFFFF = true ∧ accepts State.reset (0xFFFF + 1) = true) ∧
    accepts (guarded 0xFFFF) 0xFFFF = false ∧
    (accepts (guarded 0x0000) 0xFFFF = true ∧ accepts (guarded 0x0000) (0xFFFF + 1) = false) := by decide

/-- V-ALU8-41. -/
theorem test_hyp_ComplementAccumulator :
    let s := { State.reset with a := 0xF0, f := 0x00 }
    let f : Byte := 0x1A
    flagS f = flagS s.f ∧ flagZ f = flagZ s.f ∧ flagPV f = flagPV s.f ∧ flagC f = flagC s.f ∧
    flagH f = true ∧ flagN f = true ∧
    flag5 f = (s.a ^^^ 0xFF).getLsbD 5 ∧ flag3 f = (s.a ^^^ 0xFF).getLsbD 3 := by decide

theorem test_hyp_JumpsAndBranches : condCode .nz < 4 ∧ condCode .c < 4 := by decide

/-- Taken and untaken: also for RET cc. -/
theorem test_hyp_CallsAndRestarts :
    condHolds .m State.reset = true ∧ condHolds .nz State.reset = false := by decide

theorem test_hyp_PushAndPop : (Pair2.bc ≠ .af) ∧ (Idx.ix ≠ .iy) := by decide

/-- SET 7,L and RES 6,D (V-BIT-11, V-BIT-16), and the same of a memory byte. -/
theorem test_hyp_SetAndResetBits :
    (∀ k : Fin 8, (0xFF : Byte).getLsbD k.val =
      (decide (k = 7) || (getR8 .l { State.reset with l := 0x7F }).getLsbD k.val)) ∧
    (∀ k : Fin 8, (0x00 : Byte).getLsbD k.val =
      (!decide (k = 6) && (getR8 .d { State.reset with d := 0x40 }).getLsbD k.val)) ∧
    (∀ k : Fin 8, (0x01 : Byte).getLsbD k.val =
      (decide (k = 0) || (peek State.reset (locAddr .atHl State.reset)).getLsbD k.val)) ∧
    (∀ k : Fin 8, (0x00 : Byte).getLsbD k.val =
      (!decide (k = 7) && (peek State.reset (locAddr (.atIdx .ix 0) State.reset)).getLsbD k.val)) := by decide

theorem test_hyp_SingleBlock :
    accepts State.reset (getDe State.reset) = true ∧ accepts (guarded 0xFFFF) (getDe (guarded 0xFFFF)) = false := by
  decide

theorem test_hyp_RepeatedTransfer_one :
    let s := { State.reset with b := 0, c := 1 }
    ∀ k, k < groupSize s → accepts s (moved true (getDe s) k) = true := by decide

/-- BC = 0: all 65536 iterations of a group. -/
theorem test_hyp_RepeatedTransfer_all :
    let s := { State.reset with b := 0, c := 0 }
    groupSize s = 65536 ∧ ∀ k, k < groupSize s → accepts s (moved false (getDe s) k) = true :=
  ⟨rfl, fun _ _ => accepts_of_neverRejects _ rfl _⟩

/-- The write that is rejected can be the first or a later one, up to the last of the group. -/
theorem test_hyp_RepeatedTransfer_rejected :
    (let s := { guarded 0x6000 with d := 0x60, e := 0x00, b := 0, c := 1 }
     0 < groupSize s ∧ (∀ j, j < 0 → accepts s (moved true (getDe s) j) = true) ∧
     accepts s (moved true (getDe s) 0) = false) ∧
    (let s := { guarded 0x5FFE with d := 0x60, e := 0x00, b := 0, c := 3 }
     2 < groupSize s ∧ (∀ j, j < 2 → accepts s (moved false (getDe s) j) = true) ∧
     accepts s (moved false (getDe s) 2) = false) := by decide

theorem test_hyp_InputAndOutput :
    ((0xFF : Byte) ∉ State.reset.platform.rejectedPorts) ∧
    (0xFF : Byte) ∈ ({ Platform.default with rejectedPorts := [0xFF] } : Platform).rejectedPorts := by decide

theorem test_hyp_StepKeepsMemory : running State.reset ∧ ∃ t, step State.reset = .next t := ⟨⟨rfl, rfl⟩, _, rfl⟩

theorem test_hyp_EveryInstructionCompletes : neverRejects State.reset.platform = true := by decide

theorem test_hyp_OnlyWritesCanViolate : ∃ r, exec (.pushQq .bc) (guarded 0xFFFE) = .fault r := ⟨_, rfl⟩

theorem test_hyp_OnlyListedChangeFlags :
    writesFlags (.popQq .bc) = false ∧
    ∃ t, exec (.popQq .bc)
      { State.reset with platform := { Platform.default with xyPolicy := .draw } } = .next t := ⟨rfl, _, rfl⟩

theorem test_hyp_ControlAndShadow :
    Instr.nop ≠ .di ∧ Instr.nop ≠ .ei ∧ Instr.nop ≠ .im0 ∧ Instr.nop ≠ .im1 ∧ Instr.nop ≠ .im2 ∧
    Instr.nop ≠ .exAfAf ∧ Instr.nop ≠ .exx ∧ ∃ t, exec .nop State.reset = .next t :=
  ⟨by decide, by decide, by decide, by decide, by decide, by decide, by decide, _, rfl⟩

/-- The masks of R30: 0x80 + 0x10 + 0x04 + 0x01. -/
theorem test_hyp_FlagBits : packFlags true false false true false true false true = 0x95 := by decide

end Sys2Proof.Tests
end

section
/-! SUPPORT. The scope statements (spec/00_scope.md): what a step of a core without a recorded fault does. -/

namespace Sys2Proof.Machine
open Sys2Proof.Claims

/-- The state after the fetch reads, in full: frame and history in one equation (R75). -/
theorem fetched_eq (n : Nat) (s : State) : fetched n s = { s with history := fetchHistory n s } := by
  have reads : (fetched n s).history = fetchHistory n s := readFrom_history n s.pc s
  rw [fetched_frame, reads]

/-- A step runs the instruction decoded at pc, after its fetch reads (R2, R99). -/
theorem step_of_decode_ok {s : State} {i : Instr} (noFault : s.fault = .none)
    (decoded : decode (fetchWindow s) = .ok i) : step s = exec i (fetched (instrLength i) s) := by
  unfold step
  rw [if_neg (not_not_intro noFault), decoded]

/-- Settles O5: the step's window is the four bytes at pc, and its fetch reads leave `fetchHistory`. -/
theorem stepRunsTheDecodedInstruction : Obligations.StepRunsTheDecodedInstruction := by
  intro s i noFault decoded
  rw [step_of_decode_ok noFault decoded, fetched_eq]

end Sys2Proof.Machine
end

section
/-! SUPPORT. The state family (spec/10_state.md): what every instruction leaves unchanged (R31, R33, R34, R40, R41),
the state after reset (R38), the register pairs (R26, R27), the bits of F (R30). -/

namespace Sys2Proof.Machine
open Sys2Proof.Claims

/-! Every instruction but seven changes only the data of the machine. -/

/-- The part of the state that only the instructions of `writesControl` change: the shadow set, IFF, IM, the fault
status and the platform; the other fields stand at their reset values. -/
def controlPart (s : State) : State :=
  { State.reset with
    a' := s.a', f' := s.f', b' := s.b', c' := s.c', d' := s.d', e' := s.e', h' := s.h', l' := s.l'
    iff := s.iff, im := s.im, fault := s.fault, platform := s.platform }

/-- DI, EI, the three IM and the two exchanges with the shadow set. -/
def writesControl : Instr → Bool
  | .di | .ei | .im0 | .im1 | .im2 | .exAfAf | .exx => true
  | _ => false

/-- From `s` to `t` the control part stays, memory stays canonical, and F and the draws stay unless `flags`
allows them to change. -/
structure DataOnly (flags : Bool) (s t : State) : Prop where
  control : controlPart t = controlPart s
  memory : memWf s.mem = true → memWf t.mem = true
  kept : flags = false → sameFlags s t

/-- Every next state that `o` answers satisfies `P`. -/
def Answers (o : Out) (P : State → Prop) : Prop := ∀ t, o = .next t → P t

section Rules
variable {flags : Bool} {s t u : State} {o o' : Out} {k : State → Out}

theorem DataOnly.refl (s : State) : DataOnly flags s s := ⟨rfl, id, fun _ => ⟨rfl, rfl⟩⟩

theorem DataOnly.trans (first : DataOnly flags s t) (second : DataOnly flags t u) : DataOnly flags s u where
  control := second.control.trans first.control
  memory := second.memory ∘ first.memory
  kept off := ⟨(second.kept off).1.trans (first.kept off).1, (second.kept off).2.trans (first.kept off).2⟩

theorem answers_next {P : State → Prop} (h : P t) : Answers (.next t) P := by
  rintro _ ⟨⟩
  exact h

theorem answers_raiseViolation (kind : Violation) (target : Word) (v : Byte) {P : State → Prop} :
    Answers (raiseViolation kind target v s) P := nofun

theorem Answers.ite {P : State → Prop} {c : Prop} [Decidable c] (ho : Answers o P) (ho' : Answers o' P) :
    Answers (if c then o else o') P := by
  split
  · exact ho
  · exact ho'

theorem Answers.after (first : DataOnly flags s u) (rest : Answers o (DataOnly flags u)) :
    Answers o (DataOnly flags s) := fun t ht => first.trans (rest t ht)

theorem Answers.andThen (ho : Answers o (DataOnly flags s)) (hk : ∀ u, Answers (k u) (DataOnly flags u)) :
    Answers (andThen o k) (DataOnly flags s) := by
  intro t ht
  obtain ⟨u, hu, hkt⟩ := andThen_eq_next.mp ht
  exact (ho u hu).trans (hk u t hkt)

end Rules

/-! The updates of the state. -/

section Updates
variable {flags : Bool} (s : State)

theorem record_dataOnly (x : Access) : DataOnly flags s (record x s) := ⟨rfl, id, fun _ => ⟨rfl, rfl⟩⟩

theorem advance_dataOnly (n : Nat) : DataOnly flags s (advance n s) := ⟨rfl, id, fun _ => ⟨rfl, rfl⟩⟩

theorem setPc_dataOnly (v : Word) : DataOnly flags s (setPc v s) := ⟨rfl, id, fun _ => ⟨rfl, rfl⟩⟩

theorem setSp_dataOnly (v : Word) : DataOnly flags s (setSp v s) := ⟨rfl, id, fun _ => ⟨rfl, rfl⟩⟩

theorem setBc_dataOnly (v : Word) : DataOnly flags s (setBc v s) := ⟨rfl, id, fun _ => ⟨rfl, rfl⟩⟩

theorem setDe_dataOnly (v : Word) : DataOnly flags s (setDe v s) := ⟨rfl, id, fun _ => ⟨rfl, rfl⟩⟩

theorem setHl_dataOnly (v : Word) : DataOnly flags s (setHl v s) := ⟨rfl, id, fun _ => ⟨rfl, rfl⟩⟩

theorem setR8_dataOnly (r : Reg8) (v : Byte) : DataOnly flags s (setR8 r v s) := by
  cases r <;> exact ⟨rfl, id, fun _ => ⟨rfl, rfl⟩⟩

theorem setIdx_dataOnly (i : Idx) (v : Word) : DataOnly flags s (setIdx i v s) := by
  cases i <;> exact ⟨rfl, id, fun _ => ⟨rfl, rfl⟩⟩

theorem setPair_dataOnly (p : Pair) (v : Word) : DataOnly flags s (setPair p v s) := by
  cases p <;> exact ⟨rfl, id, fun _ => ⟨rfl, rfl⟩⟩

/-- Of the pairs of POP only AF holds F (R26). -/
theorem setPair2_dataOnly (p : Pair2) (v : Word) : DataOnly (writesFlags (.popQq p)) s (setPair2 p v s) := by
  cases p with
  | bc | de | hl => exact ⟨rfl, id, fun _ => ⟨rfl, rfl⟩⟩
  | af => exact ⟨rfl, id, nofun⟩

theorem writeF_dataOnly (f : Byte) : DataOnly true s (writeF f s) where
  control := by simp [controlPart]
  memory := by simp
  kept := nofun

theorem stored_dataOnly (a : Word) (v : Byte) : DataOnly flags s (stored a v s) :=
  ⟨rfl, stored_wf a v s, fun _ => ⟨rfl, rfl⟩⟩

theorem memRead2_dataOnly (a : Word) : DataOnly flags s (memRead2 a s).2 := ⟨rfl, id, fun _ => ⟨rfl, rfl⟩⟩

theorem pop16_dataOnly : DataOnly flags s (pop16 s).2 := ⟨rfl, id, fun _ => ⟨rfl, rfl⟩⟩

theorem readSrc_dataOnly (x : Src) : DataOnly flags s (readSrc x s).2 := by
  cases x <;> exact ⟨rfl, id, fun _ => ⟨rfl, rfl⟩⟩

theorem fetched_dataOnly (n : Nat) : DataOnly flags s (fetched n s) := by
  rw [fetched_frame]
  exact ⟨rfl, id, fun _ => ⟨rfl, rfl⟩⟩

theorem compareOnce_dataOnly (step : Word) : DataOnly flags s (compareOnce step s).2 :=
  ⟨rfl, id, fun _ => ⟨rfl, rfl⟩⟩

theorem compareLoop_dataOnly (step : Word) (more : Nat) : DataOnly flags s (compareLoop step more s).2 := by
  induction more generalizing s with
  | zero => exact compareOnce_dataOnly s step
  | succ more ih =>
    have once := compareOnce_dataOnly (flags := flags) s step
    unfold compareLoop
    dsimp only
    split
    · exact once
    · exact once.trans (ih _)

end Updates

/-! The operations that several meanings share. -/

section Operations
variable {flags : Bool} {s u : State}

theorem finish_dataOnly (n : Nat) (h : DataOnly flags s u) : Answers (finish n u) (DataOnly flags s) :=
  answers_next (h.trans (advance_dataOnly u n))

/-- An instruction ends with its flags: WriteF, then pc. -/
theorem finish_writeF_dataOnly (n : Nat) (f : Byte) (h : DataOnly true s u) :
    Answers (finish n (writeF f u)) (DataOnly true s) :=
  finish_dataOnly n (h.trans (writeF_dataOnly u f))

variable (s)

theorem jump_dataOnly (target : Word) : Answers (.next (setPc target s)) (DataOnly flags s) :=
  answers_next (setPc_dataOnly s target)

theorem memWrite_dataOnly (a : Word) (v : Byte) : Answers (memWrite a v s) (DataOnly flags s) := by
  rw [memWrite_eq]
  exact .ite (answers_next (stored_dataOnly s a v)) (answers_raiseViolation _ _ _)

theorem memWrite2_dataOnly (a v : Word) : Answers (memWrite2 a v s) (DataOnly flags s) :=
  .andThen (memWrite_dataOnly s a _) fun u => memWrite_dataOnly u (a + 1) _

theorem push16_dataOnly (v : Word) : Answers (push16 v s) (DataOnly flags s) :=
  .andThen (memWrite_dataOnly s _ _) fun u =>
    .andThen (memWrite_dataOnly u _ _) fun u => answers_next (setSp_dataOnly u _)

theorem ioWrite_dataOnly (port v : Byte) : Answers (ioWrite port v s) (DataOnly flags s) :=
  .ite (answers_raiseViolation _ _ _) (answers_next (record_dataOnly s _))

theorem loadR8_dataOnly (dst : Reg8) (a : Word) (n : Nat) : Answers (loadR8 dst a n s) (DataOnly flags s) :=
  finish_dataOnly n ((record_dataOnly s _).trans (setR8_dataOnly _ dst _))

theorem storeByte_dataOnly (a : Word) (v : Byte) (n : Nat) : Answers (storeByte a v n s) (DataOnly flags s) :=
  .andThen (memWrite_dataOnly s a v) fun u => finish_dataOnly n (.refl u)

theorem storeWord_dataOnly (a v : Word) (n : Nat) : Answers (storeWord a v n s) (DataOnly flags s) :=
  .andThen (memWrite2_dataOnly s a v) fun u => finish_dataOnly n (.refl u)

theorem accOp_dataOnly (g : Byte → Byte → Bool → Byte × Byte) (x : Src) (n : Nat) :
    Answers (accOp g x n s) (DataOnly true s) :=
  finish_writeF_dataOnly n _ ((readSrc_dataOnly s x).trans (setR8_dataOnly _ .a _))

theorem compareOp_dataOnly (x : Src) (n : Nat) : Answers (compareOp x n s) (DataOnly true s) :=
  finish_writeF_dataOnly n _ (readSrc_dataOnly s x)

theorem modifyReg_dataOnly (r : Reg8) (g : Byte → Byte × Byte) (n : Nat) :
    Answers (modifyReg r g n s) (DataOnly true s) :=
  finish_writeF_dataOnly n _ (setR8_dataOnly s r _)

theorem modifyMem_dataOnly (x : Loc) (g : Byte → Byte × Byte) (n : Nat) :
    Answers (modifyMem x g n s) (DataOnly true s) :=
  .after (record_dataOnly s _) (.andThen (memWrite_dataOnly _ _ _) fun u => finish_writeF_dataOnly n _ (.refl u))

theorem modifyMemPlain_dataOnly (x : Loc) (g : Byte → Byte) (n : Nat) :
    Answers (modifyMemPlain x g n s) (DataOnly flags s) :=
  .after (record_dataOnly s _) (.andThen (memWrite_dataOnly _ _ _) fun u => finish_dataOnly n (.refl u))

theorem bitTestMem_dataOnly (b : Fin 8) (x : Loc) (n : Nat) : Answers (bitTestMem b x n s) (DataOnly true s) :=
  finish_writeF_dataOnly n _ (record_dataOnly s _)

theorem rotateA_dataOnly (op : ShiftOp) : Answers (rotateA op s) (DataOnly true s) :=
  finish_writeF_dataOnly 1 _ (setR8_dataOnly s .a _)

theorem callTo_dataOnly (n : Nat) (target : Word) : Answers (callTo n target s) (DataOnly flags s) :=
  .andThen (push16_dataOnly s _) fun u => jump_dataOnly u target

theorem returnFrom_dataOnly : Answers (returnFrom s) (DataOnly flags s) :=
  .after (pop16_dataOnly s) (jump_dataOnly _ _)

theorem exchangeSp_dataOnly (v : Word) (set : Word → State → State) (n : Nat)
    (hset : ∀ w u, DataOnly flags u (set w u)) : Answers (exchangeSp v set n s) (DataOnly flags s) :=
  .after (memRead2_dataOnly s _) (.andThen (memWrite2_dataOnly _ _ v) fun u => finish_dataOnly n (hset _ u))

theorem transferOnce_dataOnly (step : Word) : Answers (transferOnce step s) (DataOnly flags s) :=
  .after (record_dataOnly s _) (.andThen (memWrite_dataOnly _ _ _) fun u =>
    answers_next (((setHl_dataOnly u _).trans (setDe_dataOnly _ _)).trans (setBc_dataOnly _ _)))

theorem transferLoop_dataOnly (step : Word) (more : Nat) :
    Answers (transferLoop step more s) (DataOnly flags s) := by
  induction more generalizing s with
  | zero => exact transferOnce_dataOnly s step
  | succ more ih =>
    exact .andThen (transferOnce_dataOnly s step) fun u => .ite (answers_next (.refl u)) (ih u)

theorem finishTransfer_dataOnly (fold : Byte) : Answers (finishTransfer fold s) (DataOnly true s) :=
  finish_writeF_dataOnly 2 _ (.refl s)

theorem finishCompare_dataOnly (r : Byte × State) (fold : Byte) (h : DataOnly true s r.2) :
    Answers (finishCompare r fold) (DataOnly true s) :=
  finish_writeF_dataOnly 2 _ h

end Operations

/-- What every ordinary instruction leaves unchanged, the flags included where R31 does not list it. -/
theorem exec_dataOnly (i : Instr) (s : State) (ordinary : writesControl i = false) :
    Answers (exec i s) (DataOnly (writesFlags i) s) := by
  unfold exec
  cases i with
  | di | ei | im0 | im1 | im2 | exAfAf | exx => cases ordinary
  -- What works on registers alone and sets no flag.
  | ldRR | ldRN | setBR | resBR => exact finish_dataOnly _ (setR8_dataOnly s _ _)
  | ldDdNn | incSs | decSs => exact finish_dataOnly _ (setPair_dataOnly s _ _)
  | ldIdxNn | incIdx | decIdx => exact finish_dataOnly _ (setIdx_dataOnly s _ _)
  | ldSpHl | ldSpIdx => exact finish_dataOnly _ (setSp_dataOnly s _)
  | exDeHl => exact finish_dataOnly 1 ⟨rfl, id, fun _ => ⟨rfl, rfl⟩⟩
  | nop => exact finish_dataOnly _ (.refl s)
  -- The loads from memory and the stores.
  | ldRMHl | ldRMIdx | ldAMBc | ldAMDe | ldAMNn => exact loadR8_dataOnly s _ _ _
  | ldMHlR | ldMHlN | ldMIdxR | ldMIdxN | ldMBcA | ldMDeA | ldMNnA => exact storeByte_dataOnly s _ _ _
  | ldHlMNn => exact finish_dataOnly _ ((memRead2_dataOnly s _).trans (setHl_dataOnly _ _))
  | ldDdMNn => exact finish_dataOnly _ ((memRead2_dataOnly s _).trans (setPair_dataOnly _ _ _))
  | ldIdxMNn => exact finish_dataOnly _ ((memRead2_dataOnly s _).trans (setIdx_dataOnly _ _ _))
  | ldMNnHl | ldMNnDd | ldMNnIdx => exact storeWord_dataOnly s _ _ _
  | setBMHl | setBMIdx | resBMHl | resBMIdx => exact modifyMemPlain_dataOnly s _ _ _
  -- Arithmetic, compare and logic.
  | addAR | addAN | addAMHl | addAMIdx | adcAR | adcAN | adcAMHl | adcAMIdx
  | subR | subN | subMHl | subMIdx | sbcAR | sbcAN | sbcAMHl | sbcAMIdx
  | andR | andN | andMHl | andMIdx | xorR | xorN | xorMHl | xorMIdx
  | orR | orN | orMHl | orMIdx => exact accOp_dataOnly s _ _ _
  | cpR | cpN | cpMHl | cpMIdx => exact compareOp_dataOnly s _ _
  | addHlSs | adcHlSs | sbcHlSs => exact finish_writeF_dataOnly _ _ (setHl_dataOnly s _)
  | addIdxPp => exact finish_writeF_dataOnly _ _ (setIdx_dataOnly s _ _)
  | cpl => exact finish_writeF_dataOnly _ _ (setR8_dataOnly s .a _)
  -- Rotates, shifts, INC, DEC and BIT.
  | incR | decR | rlcR | rrcR | rlR | rrR | slaR | sraR | sllR | srlR => exact modifyReg_dataOnly s _ _ _
  | incMHl | incMIdx | decMHl | decMIdx | rlcMHl | rlcMIdx | rrcMHl | rrcMIdx | rlMHl | rlMIdx
  | rrMHl | rrMIdx | slaMHl | slaMIdx | sraMHl | sraMIdx | sllMHl | sllMIdx | srlMHl | srlMIdx =>
    exact modifyMem_dataOnly s _ _ _
  | rlca | rrca | rla | rra => exact rotateA_dataOnly s _
  | bitBR => exact finish_writeF_dataOnly _ _ (.refl s)
  | bitBMHl | bitBMIdx => exact bitTestMem_dataOnly s _ _ _
  -- Control transfer.
  | jpNn | jpHl | jpIdx | jrE => exact jump_dataOnly s _
  | jpCcNn | jrCcE => exact .ite (jump_dataOnly s _) (finish_dataOnly _ (.refl s))
  | djnzE =>
    exact .after (setR8_dataOnly s .b (s.b - 1)) (.ite (jump_dataOnly _ _) (finish_dataOnly _ (.refl _)))
  | callNn | rstP => exact callTo_dataOnly s _ _
  | callCcNn => exact .ite (callTo_dataOnly s _ _) (finish_dataOnly _ (.refl s))
  | ret => exact returnFrom_dataOnly s
  | retCc => exact .ite (returnFrom_dataOnly s) (finish_dataOnly _ (.refl s))
  -- The stack.
  | pushQq | pushIdx => exact .andThen (push16_dataOnly s _) fun u => finish_dataOnly _ (.refl u)
  | popQq => exact finish_dataOnly _ ((pop16_dataOnly s).trans (setPair2_dataOnly _ _ _))
  | popIdx => exact finish_dataOnly _ ((pop16_dataOnly s).trans (setIdx_dataOnly _ _ _))
  | exMSpHl => exact exchangeSp_dataOnly s _ _ _ fun w u => setHl_dataOnly u w
  | exMSpIdx => exact exchangeSp_dataOnly s _ _ _ fun w u => setIdx_dataOnly u _ w
  -- The block groups.
  | ldi | ldd => exact .andThen (transferOnce_dataOnly s _) fun u => finishTransfer_dataOnly u _
  | ldir | lddr => exact .andThen (transferLoop_dataOnly s _ _) fun u => finishTransfer_dataOnly u _
  | cpi | cpd => exact finishCompare_dataOnly s _ _ (compareOnce_dataOnly s _)
  | cpir | cpdr => exact finishCompare_dataOnly s _ _ (compareLoop_dataOnly s _ _)
  -- Input and output.
  | inAMN => exact finish_dataOnly _ ((record_dataOnly s _).trans (setR8_dataOnly _ .a _))
  | outMNA => exact .andThen (ioWrite_dataOnly s _ _) fun u => finish_dataOnly _ (.refl u)

/-- A step that answers a next state ran a decoded instruction on a core without a fault (R2, R401, R407). -/
theorem step_eq_next {s t : State} (h : step s = .next t) :
    s.fault = .none ∧ ∃ i, decode (fetchWindow s) = .ok i ∧ exec i (fetched (instrLength i) s) = .next t := by
  unfold step at h
  split at h
  · cases h
  · next unfaulted =>
    split at h
    · next i decoded => exact ⟨not_not.mp unfaulted, i, decoded, h⟩
    · cases h

/-- Every instruction keeps the invariant: the ordinary ones write memory only through `memWrite`, and the other
seven write neither memory nor the fault status. -/
theorem exec_running {i : Instr} {s t : State} (before : running s) (h : exec i s = .next t) : running t := by
  cases ordinary : writesControl i with
  | false =>
    have data := exec_dataOnly i s ordinary t h
    exact ⟨data.memory before.1, (congrArg State.fault data.control).trans before.2⟩
  | true =>
    cases i with
    | di | ei | im0 | im1 | im2 | exAfAf | exx => cases h; exact before
    | _ => cases ordinary

/-- Settles O54: the fetch reads and the instruction both keep the invariant. -/
theorem stepKeepsMemoryCanonicalAndNoFault : Obligations.StepKeepsMemoryCanonicalAndNoFault := by
  intro s t before h
  obtain ⟨-, i, -, ran⟩ := step_eq_next h
  have fetch := fetched_dataOnly (flags := false) s (instrLength i)
  exact exec_running ⟨fetch.memory before.1, (congrArg State.fault fetch.control).trans before.2⟩ ran

/-- Settles O58: the ordinary instructions by `exec_dataOnly`; of the other seven only EX AF,AF' writes F. -/
theorem onlyListedInstructionsChangeTheFlags : Obligations.OnlyListedInstructionsChangeTheFlags := by
  intro i s t unlisted h
  cases ordinary : writesControl i with
  | false => exact (exec_dataOnly i s ordinary t h).kept unlisted
  | true =>
    cases i with
    | di | ei | im0 | im1 | im2 | exx => cases h; exact ⟨rfl, rfl⟩
    | exAfAf => cases unlisted
    | _ => cases ordinary

/-- Settles O59: the ordinary instructions keep the whole control part; each of the other seven changes only
what its name says. -/
theorem controlAndShadowStateHaveFewWriters : Obligations.ControlAndShadowStateHaveFewWriters := by
  intro i s t h
  cases ordinary : writesControl i with
  | false =>
    have same := (exec_dataOnly i s ordinary t h).control
    simp only [controlPart, State.mk.injEq] at same
    simp [same]
  | true =>
    cases i with
    | di | ei | im0 | im1 | im2 | exAfAf | exx => cases h; simp
    | _ => cases ordinary

/-! Reset. -/

/-- Settles O8: the state is written out, and of F = 0xFF every condition is read. -/
theorem resetInstallsTheDocumentedState : Obligations.ResetInstallsTheDocumentedState := by
  intro s
  have conditions : ∀ cc, condHolds cc (hostReset s) = true ↔ cc = .z ∨ cc = .c ∨ cc = .pe ∨ cc = .m := by
    have flags : (hostReset s).f = 0xFF := rfl
    intro cc
    cases cc <;> simp [condHolds, flags]
  exact ⟨rfl, rfl, conditions, rfl⟩

/-- Settles O55: no byte is listed at reset (log entry 1), and no fault is recorded. -/
theorem resetStateIsRunning : Obligations.ResetStateIsRunning := ⟨reset_mem_wf, rfl⟩

/-! The register pairs. -/

theorem reg8Of_reg8Code (r : Reg8) : reg8Of (reg8Code r) = some r := by cases r <;> rfl

theorem pairOf_pairCode (p : Pair) : pairOf (pairCode p) = p := by cases p <;> rfl

theorem pair2Of_pair2Code (p : Pair2) : pair2Of (pair2Code p) = p := by cases p <;> rfl

@[simp] theorem getPair_setPair (p : Pair) (v : Word) (s : State) : getPair p (setPair p v s) = v := by
  cases p with
  | bc | de | hl => exact mkWord_hiByte_loByte v
  | sp => rfl

@[simp] theorem getPair2_setPair2 (p : Pair2) (v : Word) (s : State) : getPair2 p (setPair2 p v s) = v := by
  cases p <;> exact mkWord_hiByte_loByte v

/-- Settles O20: the codes and the views are read off the definitions; the arithmetic is that of `mkWord`,
`hiByte` and `loByte`. -/
theorem pairsAreViewsOfTheirHalves : Obligations.PairsAreViewsOfTheirHalves := by
  intro x v s
  have halves : (hiByte v).toNat = v.toNat / 256 ∧ (loByte v).toNat = v.toNat % 256 :=
    ⟨hiByte_toNat v, loByte_toNat v⟩
  refine ⟨?getR8, ?setR8, ?reg8Codes, ?pairCodes, ?pair2Codes, ?getPair, ?getPair2, ?setPair, ?setPair2, ?getIdx,
    (getPair_setPair · v s), (getPair2_setPair2 · v s), fun i => ?getIdx_setIdx, halves, halves, halves, halves,
    mkWord_toNat s.b s.c, mkWord_toNat s.d s.e, mkWord_toNat s.h s.l, mkWord_toNat s.a s.f, ?frames⟩
  case reg8Codes => exact ⟨rfl, rfl, rfl, rfl, rfl, rfl, rfl, reg8Of_reg8Code, rfl⟩
  case pairCodes => exact ⟨rfl, rfl, rfl, rfl, pairOf_pairCode⟩
  case pair2Codes => exact ⟨rfl, rfl, rfl, rfl, pair2Of_pair2Code⟩
  case getIdx_setIdx => simp
  case getR8 | setR8 | getPair | getPair2 | setPair | setPair2 | getIdx | frames => and_intros <;> rfl

/-! The bits of F. -/

/-- A flag byte is the sum of its flags, each at the place R30 gives it. -/
theorem packFlags_toNat (s z b5 h b3 pv n c : Bool) :
    (packFlags s z b5 h b3 pv n c).toNat = 0x80 * s.toNat + 0x40 * z.toNat + 0x20 * b5.toNat + 0x10 * h.toNat +
      0x08 * b3.toNat + 0x04 * pv.toNat + 0x02 * n.toNat + c.toNat := by
  revert s z b5 h b3 pv n c
  decide

/-- Settles O60: a byte is the pack of its flags, and a pack gives each flag back. -/
theorem flagBitsHaveTheirPlaces : Obligations.FlagBitsHaveTheirPlaces := by
  constructor
  · intro f
    calc f.toNat
      _ = (packFlags (flagS f) (flagZ f) (flag5 f) (flagH f) (flag3 f) (flagPV f) (flagN f) (flagC f)).toNat := by
        rw [packFlags_eta]
      _ = _ := packFlags_toNat ..
  · rintro s z b5 h b3 pv n c _ rfl
    simp

end Sys2Proof.Machine
end

section
/-! SUPPORT. The memory family (spec/20_memory.md): what a write and a read do at an address of each kind (R63, R64). -/

namespace Sys2Proof.Machine
open Sys2Proof.Claims

section Kinds
variable {s : State} {addr : Word}

/-! A write, by the kind of its address (R63). -/

theorem memWrite_of_ram (v : Byte) (kind : memKind s addr = .ram) :
    memWrite addr v s = .next (stored addr v s) := by
  simp [memWrite_eq, accepts, kindAccepts, kind]

theorem memWrite_of_ignore {rom : Bool} (v : Byte) (kind : memKind s addr = .ignore rom) :
    memWrite addr v s = .next { s with history := .memWrite addr v :: s.history } := by
  simp [memWrite_eq, accepts, kindAccepts, stored, kind]

theorem memWrite_of_fault {rom : Bool} (v : Byte) (kind : memKind s addr = .fault rom) :
    memWrite addr v s = raiseViolation .unmappedWrite addr v s := by
  simp [memWrite_eq, accepts, kindAccepts, kind]

/-- After a write to `ram` that address reads as the byte written, and every other one as before. -/
theorem peek_stored_of_ram (v : Byte) (kind : memKind s addr = .ram) (x : Word) :
    peek (stored addr v s) x = if x = addr then v else peek s x := by
  simp [peek_stored, readsAfter, kind]

/-! A read, by whether its address holds a byte (R64). -/

theorem peek_of_holds (holds : kindHolds (memKind s addr) = true) : peek s addr = memGet s.mem addr.toNat :=
  if_pos holds

theorem peek_of_unmapped (unmapped : kindHolds (memKind s addr) = false) :
    peek s addr = s.platform.unmappedRead :=
  if_neg (Bool.eq_false_iff.mp unmapped)

end Kinds

/-- Settles O21: the write by the kind of its address, the read by whether that kind holds a byte; the platform of
the reset state lists no range. -/
theorem memoryKeepsWhatEachKindSays : Obligations.MemoryKeepsWhatEachKindSays := by
  refine ⟨fun s addr v => ⟨fun ram => ?stores, fun _ ignored => memWrite_of_ignore v ignored,
    fun _ refused => memWrite_of_fault v refused⟩, fun s addr => ⟨fun kind => peek_of_holds ?holds,
    fun kind => peek_of_unmapped ?unmapped⟩, fun addr => rfl, rfl⟩
  case stores => exact ⟨stored addr v s, memWrite_of_ram v ram, peek_stored_of_ram v ram, rfl⟩
  case holds => obtain ram | ignored | refused := kind <;> simp [kindHolds, *]
  case unmapped => obtain ignored | refused := kind <;> simp [kindHolds, *]

end Sys2Proof.Machine
end

section
/-! SUPPORT. The encoding family (spec/30_encoding.md): an opcode byte is its fields x, y, z (R92), a code is its
operand (R24 to R26, R232, R270), and the decoder reads each byte as the encoder writes it (R91 to R105). -/

namespace Sys2Proof.Machine
open Sys2Proof.Claims

/-! The fields of an opcode byte (R92). -/

section Fields
variable {b c : Byte} {x y z p q : Nat}

@[simp] theorem fieldX_lt (b : Byte) : fieldX b < 4 := by
  have := b.isLt
  unfold fieldX
  omega

@[simp] theorem fieldY_lt (b : Byte) : fieldY b < 8 := Nat.mod_lt _ (by decide)

@[simp] theorem fieldZ_lt (b : Byte) : fieldZ b < 8 := Nat.mod_lt _ (by decide)

@[simp] theorem fieldP_lt (b : Byte) : fieldP b < 4 := Nat.mod_lt _ (by decide)

@[simp] theorem fieldQ_lt (b : Byte) : fieldQ b < 2 := Nat.mod_lt _ (by decide)

theorem fieldY_eq (b : Byte) : fieldY b = 2 * fieldP b + fieldQ b := by
  unfold fieldY fieldP fieldQ
  omega

theorem fieldP_eq (b : Byte) : fieldP b = fieldY b / 2 := by
  have := fieldQ_lt b
  rw [fieldY_eq]
  omega

theorem fieldQ_eq (b : Byte) : fieldQ b = fieldY b % 2 := by
  have := fieldQ_lt b
  rw [fieldY_eq]
  omega

/-- The range of each field, and y by its parts p and q. -/
theorem field_bounds (b : Byte) :
    fieldX b < 4 ∧ fieldZ b < 8 ∧ fieldP b < 4 ∧ fieldQ b < 2 ∧ fieldY b = 2 * fieldP b + fieldQ b :=
  ⟨fieldX_lt b, fieldZ_lt b, fieldP_lt b, fieldQ_lt b, fieldY_eq b⟩

@[simp] theorem fieldX_ofNat (n : Nat) : fieldX (BitVec.ofNat 8 n) = n % 256 / 64 := by simp [fieldX]

@[simp] theorem fieldY_ofNat (n : Nat) : fieldY (BitVec.ofNat 8 n) = n % 256 / 8 % 8 := by simp [fieldY]

@[simp] theorem fieldZ_ofNat (n : Nat) : fieldZ (BitVec.ofNat 8 n) = n % 256 % 8 := by simp [fieldZ]

section Xyz
variable (hx : x < 4) (hy : y < 8) (hz : z < 8)
include hx hy hz

theorem toNat_opXyz : (opXyz x y z).toNat = 64 * x + 8 * y + z := by
  simp only [opXyz, BitVec.toNat_ofNat]
  omega

@[simp] theorem fieldX_opXyz : fieldX (opXyz x y z) = x := by
  rw [fieldX, toNat_opXyz hx hy hz]
  omega

@[simp] theorem fieldY_opXyz : fieldY (opXyz x y z) = y := by
  rw [fieldY, toNat_opXyz hx hy hz]
  omega

@[simp] theorem fieldZ_opXyz : fieldZ (opXyz x y z) = z := by
  rw [fieldZ, toNat_opXyz hx hy hz]
  omega

end Xyz

theorem opXyz_fields (b : Byte) : opXyz (fieldX b) (fieldY b) (fieldZ b) = b := by
  apply BitVec.eq_of_toNat_eq
  rw [toNat_opXyz (fieldX_lt b) (fieldY_lt b) (fieldZ_lt b)]
  unfold fieldX fieldY fieldZ
  omega

theorem byte_eq_iff_fields : b = c ↔ fieldX b = fieldX c ∧ fieldY b = fieldY c ∧ fieldZ b = fieldZ c := by
  constructor
  · rintro rfl
    simp
  · rintro ⟨hx, hy, hz⟩
    rw [← opXyz_fields b, ← opXyz_fields c, hx, hy, hz]

@[simp] theorem eq_opXyz_iff (hx : x < 4) (hy : y < 8) (hz : z < 8) :
    b = opXyz x y z ↔ fieldX b = x ∧ fieldY b = y ∧ fieldZ b = z := by
  simp [byte_eq_iff_fields, hx, hy, hz]

section Xpqz
variable (hx : x < 4) (hp : p < 4) (hq : q < 2) (hz : z < 8)
include hx hp hq hz

@[simp] theorem eq_opXpqz_iff :
    b = opXpqz x p q z ↔ fieldX b = x ∧ fieldP b = p ∧ fieldQ b = q ∧ fieldZ b = z := by
  have bounds := field_bounds b
  rw [opXpqz, eq_opXyz_iff hx (by omega) hz]
  omega

@[simp] theorem fieldX_opXpqz : fieldX (opXpqz x p q z) = x := fieldX_opXyz hx (by omega) hz

@[simp] theorem fieldY_opXpqz : fieldY (opXpqz x p q z) = 2 * p + q := fieldY_opXyz hx (by omega) hz

@[simp] theorem fieldZ_opXpqz : fieldZ (opXpqz x p q z) = z := fieldZ_opXyz hx (by omega) hz

@[simp] theorem fieldP_opXpqz : fieldP (opXpqz x p q z) = p := by
  rw [fieldP_eq, fieldY_opXpqz hx hp hq hz]
  omega

@[simp] theorem fieldQ_opXpqz : fieldQ (opXpqz x p q z) = q := by
  rw [fieldQ_eq, fieldY_opXpqz hx hp hq hz]
  omega

end Xpqz

/-- A byte is a given number iff its fields are those of the number. -/
theorem eq_ofNat_iff {n : Nat} :
    b = BitVec.ofNat 8 n ↔ fieldX b = n % 256 / 64 ∧ fieldY b = n % 256 / 8 % 8 ∧ fieldZ b = n % 256 % 8 := by
  simp [byte_eq_iff_fields]

@[simp] theorem fieldP_ofNat (n : Nat) : fieldP (BitVec.ofNat 8 n) = n % 256 / 16 % 4 := by simp [fieldP]

@[simp] theorem fieldQ_ofNat (n : Nat) : fieldQ (BitVec.ofNat 8 n) = n % 256 / 8 % 2 := by simp [fieldQ]

end Fields

/-! The codes of the operands (R24 to R26, R232, R270). -/

section Codes
variable {y p : Nat}

@[simp] theorem reg8Code_lt (r : Reg8) : reg8Code r < 8 := by cases r <;> decide

@[simp] theorem pairCode_lt (p : Pair) : pairCode p < 4 := by cases p <;> decide

@[simp] theorem pair2Code_lt (p : Pair2) : pair2Code p < 4 := by cases p <;> decide

@[simp] theorem pairXCode_lt (p : PairX) : pairXCode p < 4 := by cases p <;> decide

@[simp] theorem condCode_lt (cc : Cond) : condCode cc < 8 := by cases cc <;> decide

/-- The field y of JR cc,e (R276). -/
@[simp] theorem jrCode_lt (n : Nat) : 4 + n % 4 < 8 := by omega

@[simp] theorem pairXOf_pairXCode (p : PairX) : pairXOf (pairXCode p) = p := by cases p <;> rfl

@[simp] theorem condOf_condCode (cc : Cond) : condOf (condCode cc) = cc := by cases cc <;> rfl

@[simp] theorem octal_val (t : Fin 8) : octal t.val = t := Fin.ofNat_val_eq_self t

@[simp] theorem reg8Of_six : reg8Of 6 = none := rfl

@[simp] theorem reg8Of_eq_some {r : Reg8} : reg8Of y = some r ↔ y = reg8Code r := by
  constructor
  · unfold reg8Of
    split <;> rintro ⟨⟩ <;> rfl
  · rintro rfl
    exact reg8Of_reg8Code r

@[simp] theorem reg8Of_eq_none (hy : y < 8) : reg8Of y = none ↔ y = 6 := by
  interval_cases y <;> simp [reg8Of]

@[simp] theorem pairCode_pairOf (hp : p < 4) : pairCode (pairOf p) = p := by interval_cases p <;> rfl

@[simp] theorem pair2Code_pair2Of (hp : p < 4) : pair2Code (pair2Of p) = p := by interval_cases p <;> rfl

@[simp] theorem pairXCode_pairXOf (hp : p < 4) : pairXCode (pairXOf p) = p := by interval_cases p <;> rfl

@[simp] theorem condCode_condOf (hy : y < 8) : condCode (condOf y) = y := by interval_cases y <;> rfl

@[simp] theorem octal_of_lt (hy : y < 8) : (octal y).val = y := Nat.mod_eq_of_lt hy

/-! The condition of JR cc,e is read from y - 4 (R276). -/

@[simp] theorem fieldY_sub_lt (b : Byte) (n : Nat) : fieldY b - n < 8 := (Nat.sub_le _ n).trans_lt (fieldY_lt b)

@[simp] theorem forJr_condOf (b : Byte) : (condOf (fieldY b - 4)).forJr = true := by
  have inRange : fieldY b - 4 < 4 := by
    have := fieldY_lt b
    omega
  generalize fieldY b - 4 = y at inRange
  interval_cases y <;> rfl

end Codes

/-! Decoding an encoding. The window is known at the bytes of the encoding, and the decoder reads the fields that the
encoder wrote there. -/

section Window
variable (b0 b1 b2 b3 : Byte) (rest : List Byte)

@[simp] theorem windowOf_b0 : (windowOf (b0 :: rest)).b0 = b0 := rfl

@[simp] theorem windowOf_b1 : (windowOf (b0 :: b1 :: rest)).b1 = b1 := rfl

@[simp] theorem windowOf_b2 : (windowOf (b0 :: b1 :: b2 :: rest)).b2 = b2 := rfl

@[simp] theorem windowOf_b3 : (windowOf (b0 :: b1 :: b2 :: b3 :: rest)).b3 = b3 := rfl

end Window

theorem decode_indexed {w : Window} {r : Idx} (b0 : w.b0 = idxPrefix r) : decode w = decodeIndexed r w := by
  cases r <;> simp [decode, b0, idxPrefix]

/-- Settles O1, page by page: the first bytes choose the page, and the fields of the opcode byte the instruction. -/
theorem decodingAnEncodingGivesItBack : Obligations.DecodingAnEncodingGivesItBack := by
  intro i tail wf
  cases i with
  -- The main page, x = 0.
  | ldRN | ldMHlN | ldAMBc | ldAMDe | ldMBcA | ldMDeA | ldAMNn | ldMNnA | ldDdNn | ldHlMNn | ldMNnHl | incR | incMHl
  | decR | decMHl | addHlSs | incSs | decSs | cpl | jrE | djnzE | exAfAf | rlca | rrca | rla | rra | nop =>
    simp [encode, decode, decodeMain, decodeMain0, orReject, eq_ofNat_iff, reg8Of_reg8Code, pairOf_pairCode]
  | jrCcE cc =>
    cases cc with
    | nz | z | nc | c => simp [encode, decode, decodeMain, decodeMain0, orReject, eq_ofNat_iff, condCode, condOf]
    | po | pe | p | m => cases wf
  -- The main page, x = 1.
  | ldRR | ldRMHl | ldMHlR =>
    simp [encode, decode, decodeMain, decodeMain1, orReject, eq_ofNat_iff, reg8Of_reg8Code]
  -- The main page, x = 2.
  | addAR | addAMHl | adcAR | adcAMHl | subR | subMHl | sbcAR | sbcAMHl | andR | andMHl | xorR | xorMHl | orR | orMHl
  | cpR | cpMHl =>
    simp [encode, decode, decodeMain, decodeMain2, orReject, eq_ofNat_iff, reg8Of_reg8Code, aluR, aluMHl]
  -- The main page, x = 3.
  | ldSpHl | addAN | adcAN | subN | sbcAN | andN | xorN | orN | cpN | jpNn | jpCcNn | jpHl | callNn | callCcNn
  | ret | retCc | rstP | popQq | exDeHl | exx | exMSpHl | inAMN | outMNA | di | ei =>
    simp [encode, decode, decodeMain, decodeMain3, orReject, eq_ofNat_iff, pair2Of_pair2Code, aluN]
  | pushQq p =>
    -- z = 5 is also that of 0xDD, 0xED and 0xFD: the pair tells them apart.
    cases p <;> simp [encode, decode, decodeMain, decodeMain3, orReject, eq_ofNat_iff, pair2Code, pair2Of]
  -- The page 0xCB.
  | rlcR | rlcMHl | rrcR | rrcMHl | rlR | rlMHl | rrR | rrMHl | slaR | slaMHl | sraR | sraMHl | sllR | sllMHl
  | srlR | srlMHl | bitBR | bitBMHl | resBR | resBMHl | setBR | setBMHl =>
    simp [encode, decode, decodeCb, reg8Of_reg8Code, rotR, rotMHl]
  -- The page 0xED.
  | ldDdMNn | ldMNnDd | adcHlSs | sbcHlSs | ldi | ldd | ldir | lddr | cpi | cpd | cpir | cpdr | im0 | im1 | im2 =>
    simp [encode, decode, decodeEd, orReject, pairOf_pairCode]
  -- The pages 0xDD and 0xFD.
  | ldRMIdx | ldMIdxR | ldMIdxN | ldIdxNn | ldIdxMNn | ldMNnIdx | ldSpIdx | addAMIdx | adcAMIdx | subMIdx
  | sbcAMIdx | andMIdx | xorMIdx | orMIdx | cpMIdx | incMIdx | decMIdx | addIdxPp | incIdx | decIdx | jpIdx
  | pushIdx | popIdx | exMSpIdx =>
    rw [decode_indexed rfl]
    simp [encode, decodeIndexed, decodeIdx, orReject, eq_ofNat_iff, reg8Of_reg8Code, aluMIdx]
  -- The pages 0xDD 0xCB and 0xFD 0xCB.
  | rlcMIdx | rrcMIdx | rlMIdx | rrMIdx | slaMIdx | sraMIdx | sllMIdx | srlMIdx | bitBMIdx | resBMIdx | setBMIdx =>
    rw [decode_indexed rfl]
    simp [encode, decodeIndexed, decodeIdxCb, orReject, rotMIdx]

/-- Settles O4: each word is the encoding of its instruction. -/
theorem wordsOfTheSpecDecodeRight : Obligations.WordsOfTheSpecDecodeRight :=
  have decodes := decodingAnEncodingGivesItBack
  ⟨decodes (.ldRR .c .l) [] rfl, decodes .cpl [] rfl, decodes (.subR .b) [] rfl, decodes (.addHlSs .bc) [] rfl,
    decodes (.bitBR 0 .c) [] rfl, decodes (.callNn 0x2210) [] rfl, decodes .ret [] rfl,
    decodes (.ldMIdxN .ix 0x05 0x5A) [] rfl, decodes (.rrMIdx .iy 0xFF) [] rfl, decodes (.ldDdMNn .bc 0x2130) [] rfl,
    decodes .exx [] rfl, decodes .ldir [] rfl, decodes (.inAMN 0x01) [] rfl, decodes .im2 [] rfl⟩

/-! Encoding what was decoded. In each arm of the decoder the fields it matched are the ones the encoder writes; the
last arm of a match stands for the one value left within the field's range. -/

/-- The well-formed instruction `i` is the one whose encoding begins the window. -/
def Encodes (w : Window) (i : Instr) : Prop :=
  i.wellFormed = true ∧ (windowBytes w).take (encode i).length = encode i

theorem length_encode (i : Instr) : (encode i).length = instrLength i := by cases i <;> rfl

section Pages
variable {w : Window} {i : Instr} {r : Idx}

theorem encodes_of_decodeMain (decoded : decodeMain w = some i) : Encodes w i := by
  simp only [decodeMain, decodeMain0, decodeMain1, decodeMain2, decodeMain3, aluR, aluMHl, aluN] at decoded
  repeat' split at decoded
  all_goals cases decoded
  all_goals simp [Encodes, Instr.wellFormed, encode, windowBytes, eq_ofNat_iff] at *
  all_goals
    have bounds := field_bounds w.b0
    omega

theorem encodes_decodeCb (b0 : w.b0 = 0xCB) : Encodes w (decodeCb w.b1) := by
  simp only [decodeCb, rotR, rotMHl]
  repeat' split
  all_goals simp [Encodes, Instr.wellFormed, encode, windowBytes, *] at *
  all_goals
    have bounds := field_bounds w.b1
    omega

theorem encodes_of_decodeEd (b0 : w.b0 = 0xED) (decoded : decodeEd w = some i) : Encodes w i := by
  simp only [decodeEd] at decoded
  repeat' split at decoded
  all_goals cases decoded
  all_goals simp [Encodes, Instr.wellFormed, encode, windowBytes, eq_ofNat_iff, *] at *
  all_goals
    have bounds := field_bounds w.b1
    omega

theorem encodes_of_decodeIdx (b0 : w.b0 = idxPrefix r) (decoded : decodeIdx r w = some i) : Encodes w i := by
  simp only [decodeIdx, aluMIdx] at decoded
  repeat' split at decoded
  all_goals cases decoded
  all_goals simp [Encodes, Instr.wellFormed, encode, windowBytes, eq_ofNat_iff, *] at *
  all_goals
    have bounds := field_bounds w.b1
    omega

theorem encodes_of_decodeIdxCb (b0 : w.b0 = idxPrefix r) (b1 : w.b1 = 0xCB)
    (decoded : decodeIdxCb r w.b2 w.b3 = some i) : Encodes w i := by
  simp only [decodeIdxCb, rotMIdx] at decoded
  repeat' split at decoded
  all_goals cases decoded
  all_goals simp [Encodes, Instr.wellFormed, encode, windowBytes, *] at *
  all_goals
    have bounds := field_bounds w.b3
    omega

end Pages

theorem orReject_eq_ok {bytes : List Byte} {o : Option Instr} {i : Instr} :
    orReject bytes o = .ok i ↔ o = some i := by
  cases o <;> simp [orReject]

theorem orReject_eq_error {bytes read : List Byte} {o : Option Instr} :
    orReject read o = .error (.unimplemented bytes) ↔ o = none ∧ bytes = read := by
  cases o <;> simp [orReject, eq_comm]

theorem encodes_of_decodeIndexed {w : Window} {i : Instr} {r : Idx} (b0 : w.b0 = idxPrefix r)
    (decoded : decodeIndexed r w = .ok i) : Encodes w i := by
  rw [decodeIndexed] at decoded
  split_ifs at decoded with b1
  · exact encodes_of_decodeIdxCb b0 b1 (orReject_eq_ok.mp decoded)
  · exact encodes_of_decodeIdx b0 (orReject_eq_ok.mp decoded)

theorem encodes_of_decode {w : Window} {i : Instr} (decoded : decode w = .ok i) : Encodes w i := by
  rw [decode] at decoded
  split_ifs at decoded with cb ed dd fd
  · cases decoded
    exact encodes_decodeCb cb
  · exact encodes_of_decodeEd ed (orReject_eq_ok.mp decoded)
  · exact encodes_of_decodeIndexed (r := .ix) dd decoded
  · exact encodes_of_decodeIndexed (r := .iy) fd decoded
  · exact encodes_of_decodeMain (orReject_eq_ok.mp decoded)

/-- Settles O2: `Encodes`, with the length of the encoding read as `instrLength`. -/
theorem decodedBytesAreTheEncoding : Obligations.DecodedBytesAreTheEncoding := by
  intro w i decoded
  rw [← length_encode]
  exact encodes_of_decode decoded

/-! What the decoder refuses (R99, R105). Its matches look at opcode bytes alone, so whether it answers does not depend
on the operand bytes, and the 256 opcode bytes of a page are decided with every other byte 0. -/

section Refused
variable (w : Window) (r : Idx)

theorem isNone_decodeMain : (decodeMain w).isNone = (decodeMain ⟨w.b0, 0, 0, 0⟩).isNone := by
  unfold decodeMain decodeMain0 decodeMain1 decodeMain2 decodeMain3
  dsimp only
  repeat' split
  all_goals rfl

theorem isNone_decodeEd : (decodeEd w).isNone = (decodeEd ⟨0, w.b1, 0, 0⟩).isNone := by
  unfold decodeEd
  dsimp only
  repeat' split
  all_goals rfl

theorem isNone_decodeIdx : (decodeIdx r w).isNone = (decodeIdx .ix ⟨0, w.b1, 0, 0⟩).isNone := by
  unfold decodeIdx
  dsimp only
  repeat' split
  all_goals rfl

/-- The bytes that lead to the other pages are no opcodes of the main page, so `decodeMain` answers none at them too. -/
theorem decodeMain_eq_none :
    decodeMain w = none ↔ w.b0 ∈ [0x27, 0x37, 0x3F, 0x76] ∨ w.b0 ∈ [0xCB, 0xED, 0xDD, 0xFD] := by
  rw [← Option.isNone_iff_eq_none, isNone_decodeMain]
  generalize w.b0 = b
  revert b
  decide

theorem decodeEd_eq_none : decodeEd w = none ↔ w.b1 ∉ edAdmitted := by
  rw [← Option.isNone_iff_eq_none, isNone_decodeEd]
  generalize w.b1 = b
  revert b
  decide

theorem decodeIdx_eq_none : decodeIdx r w = none ↔ w.b1 ∉ idxAdmitted := by
  rw [← Option.isNone_iff_eq_none, isNone_decodeIdx]
  generalize w.b1 = b
  revert b
  decide

theorem decodeIdxCb_eq_none (d op : Byte) : decodeIdxCb r d op = none ↔ op.toNat % 8 ≠ 6 := by
  unfold decodeIdxCb fieldZ
  repeat' split
  all_goals simp [*]

theorem decodeIndexed_eq_error (bytes : List Byte) :
    decodeIndexed r w = .error (.unimplemented bytes) ↔
      (w.b1 ≠ 0xCB ∧ w.b1 ∉ idxAdmitted ∧ bytes = [w.b0, w.b1]) ∨
      (w.b1 = 0xCB ∧ w.b3.toNat % 8 ≠ 6 ∧ bytes = [w.b0, w.b1, w.b2, w.b3]) := by
  rw [decodeIndexed]
  split_ifs with b1
  · simp [orReject_eq_error, decodeIdxCb_eq_none, b1]
  · simp_all [orReject_eq_error, decodeIdx_eq_none]

end Refused

/-- Settles O3, by the first byte, which chooses the page. -/
theorem rejectedEncodingsAreExactlyTheNonAdmitted : Obligations.RejectedEncodingsAreExactlyTheNonAdmitted := by
  intro w bytes
  rw [decode]
  split_ifs with cb ed dd fd
  · simp [notAdmitted, cb]
  · simp [notAdmitted, orReject_eq_error, decodeEd_eq_none, ed]
  · simp [notAdmitted, decodeIndexed_eq_error, dd]
  · simp [notAdmitted, decodeIndexed_eq_error, fd]
  · have notPrefix : w.b0 ∉ [0xCB, 0xED, 0xDD, 0xFD] := by simp_all
    rw [orReject_eq_error, decodeMain_eq_none, or_iff_left notPrefix]
    simp_all [notAdmitted]

end Sys2Proof.Machine
end

section
/-! SUPPORT. The flag unit family (spec/40_flag_unit.md R130 to R145): parity as a count, the two forms of PV (the sign
rule and the range of the exact signed result) at any width, and the flags of each operation. -/

namespace Sys2Proof.Machine

/-! The two forms of PV (R133, R134, R139, R140), at any width. A result is the exact signed result mod 2^(w+1), so its
sign bit is wrong iff the exact result lies outside the signed range. -/

section Overflow
variable {w : Nat}

theorem signBit_eq (x : BitVec (w + 1)) : x.getLsbD w = decide (x.toInt < 0) := by
  rw [← BitVec.msb_eq_toInt, BitVec.msb_eq_getLsbD_last, Nat.add_sub_cancel]

theorem toInt_bounds (x : BitVec (w + 1)) : -2 ^ w ≤ x.toInt ∧ x.toInt < 2 ^ w := ⟨x.le_toInt, x.toInt_lt⟩

/-- A value within twice the signed range is off by the modulus exactly if it lies outside the signed range. -/
theorem signBit_ofInt_ne_iff {z : Int} (low : -(2 * 2 ^ w) ≤ z) (high : z < 2 * 2 ^ w) :
    (BitVec.ofInt (w + 1) z).getLsbD w ≠ decide (z < 0) ↔ z < -2 ^ w ∨ z > 2 ^ w - 1 := by
  have modulus : ((2 ^ (w + 1) : Nat) : Int) = 2 * 2 ^ w := by
    push_cast
    ring
  rw [signBit_eq, BitVec.toInt_ofInt, Int.bmod_def, modulus]
  generalize (2 : Int) ^ w = p at *
  obtain negative | nonnegative := Int.lt_or_le z 0
  · have wrapped : z % (2 * p) = z + 2 * p := by
      rw [← Int.add_emod_right]
      exact Int.emod_eq_of_lt (by omega) (by omega)
    grind
  · have unwrapped : z % (2 * p) = z := Int.emod_eq_of_lt nonnegative high
    grind

/-- The sign rule of an operation with the exact result `z`: where the signs of the operands allow an overflow the sign
of `a` is that of `z`, and where they do not `z` is in range. -/
theorem signRule_iff {signs : Prop} {a : BitVec (w + 1)} {z : Int} (low : -(2 * 2 ^ w) ≤ z) (high : z < 2 * 2 ^ w)
    (sign : signs → (a.toInt < 0 ↔ z < 0)) (inRange : ¬ signs → -2 ^ w ≤ z ∧ z < 2 ^ w) :
    signs ∧ (BitVec.ofInt (w + 1) z).getLsbD w ≠ a.getLsbD w ↔ z < -2 ^ w ∨ z > 2 ^ w - 1 := by
  by_cases overflows : signs
  · rw [and_iff_right overflows, signBit_eq a, decide_eq_decide.mpr (sign overflows)]
    exact signBit_ofInt_ne_iff low high
  · have := inRange overflows
    rw [iff_false_left fun h => overflows h.1]
    omega

variable (a b : BitVec (w + 1)) (cin : Bool)

theorem ofNat_sum_eq : BitVec.ofNat (w + 1) (a.toNat + b.toNat + cin.toNat) =
    BitVec.ofInt (w + 1) (a.toInt + b.toInt + cin.toNat) := by
  simp [BitVec.ofInt_add, BitVec.ofNat_add]

theorem ofInt_difference_eq : BitVec.ofInt (w + 1) (a.toNat - b.toNat - cin.toNat) =
    BitVec.ofInt (w + 1) (a.toInt - b.toInt - cin.toNat) := by
  simp [sub_eq_add_neg, BitVec.ofInt_add, BitVec.ofInt_neg]

/-- A sum overflows only where the operands have one sign (R133, R139). -/
theorem signRule_sum_iff :
    a.getLsbD w = b.getLsbD w ∧
      (BitVec.ofNat (w + 1) (a.toNat + b.toNat + cin.toNat)).getLsbD w ≠ a.getLsbD w ↔
    a.toInt + b.toInt + cin.toNat < -2 ^ w ∨ a.toInt + b.toInt + cin.toNat > 2 ^ w - 1 := by
  have boundsA := toInt_bounds a
  have boundsB := toInt_bounds b
  have carry := cin.toNat_le
  rw [ofNat_sum_eq]
  apply signRule_iff
  case low | high => omega
  case sign | inRange =>
    simp only [signBit_eq, decide_eq_decide]
    omega

/-- A difference overflows only where the signs of the operands differ (R134, R140). -/
theorem signRule_difference_iff :
    a.getLsbD w ≠ b.getLsbD w ∧
      (BitVec.ofInt (w + 1) (a.toNat - b.toNat - cin.toNat)).getLsbD w ≠ a.getLsbD w ↔
    a.toInt - b.toInt - cin.toNat < -2 ^ w ∨ a.toInt - b.toInt - cin.toNat > 2 ^ w - 1 := by
  have boundsA := toInt_bounds a
  have boundsB := toInt_bounds b
  have borrow := cin.toNat_le
  rw [ofInt_difference_eq]
  apply signRule_iff
  case low | high => omega
  case sign | inRange =>
    simp only [signBit_eq, ne_eq, decide_eq_decide]
    omega

end Overflow

/-- A difference is kept mod 2^w. -/
theorem toNat_ofInt_eq_emod (w : Nat) (z : Int) : ((BitVec.ofInt w z).toNat : Int) = z % (2 ^ w : Nat) := by
  rw [BitVec.toNat_ofInt]
  exact Int.toNat_of_nonneg (Int.emod_nonneg _ (by positivity))

/-! The operations. Each flag is a bit of the flag byte packed, so `simp` reads it off; of the sums and differences it
leaves the range form of PV, which is the sign rule at their width. -/

/-- Settles O10: the range form of PV is `signRule_sum_iff` at width 8. -/
theorem addFlagsAreThoseOfTheExactSum : Obligations.AddFlagsAreThoseOfTheExactSum := by
  rintro a b _ _ cin ⟨⟩
  refine ⟨BitVec.toNat_ofNat .., ?flags⟩
  simpa [flagsOf] using signRule_sum_iff a b cin

/-- Settles O11: the range form of PV is `signRule_difference_iff` at width 8. -/
theorem subtractFlagsAreThoseOfTheExactDifference : Obligations.SubtractFlagsAreThoseOfTheExactDifference := by
  rintro a b _ _ cin ⟨⟩
  refine ⟨toNat_ofInt_eq_emod .., ?flags⟩
  simpa [flagsOf] using signRule_difference_iff a b cin

/-- Settles O15: the range forms of PV are the two sign rules at width 16. -/
theorem addAndSubtractWordWithCarryFlags : Obligations.AddAndSubtractWordWithCarryFlags := by
  refine fun a b r f cin => ⟨?sum, ?difference⟩
  case sum =>
    rintro ⟨⟩
    refine ⟨BitVec.toNat_ofNat .., ?sumFlags⟩
    simpa [flagsOf16] using signRule_sum_iff a b cin
  case difference =>
    rintro ⟨⟩
    refine ⟨toNat_ofInt_eq_emod .., ?differenceFlags⟩
    simpa [flagsOf16] using signRule_difference_iff a b cin

/-- Settles O14: beside H, N and C the flags are packed from the old flag byte. -/
theorem addWordFlags : Obligations.AddWordFlags := by
  rintro a b _ fold _ ⟨⟩
  refine ⟨BitVec.toNat_ofNat .., ?flags⟩
  simp

/-- Settles O12: the two results as numbers, and the bits of the two flag bytes. -/
theorem incrementAndDecrementFlags : Obligations.IncrementAndDecrementFlags := by
  refine fun v fold r f => ⟨?inc, ?dec⟩
  case inc =>
    rintro ⟨⟩
    refine ⟨BitVec.toNat_add .., ?incFlags⟩
    simp [flagsOf]
  case dec =>
    rintro ⟨⟩
    have result : (v - 1).toNat = (v.toNat + 255) % 256 := by
      rw [BitVec.toNat_sub, Nat.add_comm]
      rfl
    refine ⟨result, ?decFlags⟩
    simp [flagsOf]

/-! Parity (R130) and the operations that set PV to it (R137, R142). -/

/-- Exclusive or over a list is the parity of the count. -/
theorem foldr_xor_eq_odd_countP {α : Type} (p : α → Bool) (l : List α) :
    (l.map p).foldr xor false = decide (l.countP p % 2 = 1) := by
  induction l with
  | nil => rfl
  | cons x l ih =>
    rw [List.map_cons, List.foldr_cons, ih, List.countP_cons]
    cases p x <;> grind

/-- Settles O9: parity denies the exclusive or of the eight bits. -/
theorem parityIsTrueForAnEvenNumberOfBits : Obligations.ParityIsTrueForAnEvenNumberOfBits := by
  refine ⟨fun v => ?even, rfl, rfl, rfl, rfl, rfl⟩
  have odd : parity v = !((List.range 8).map v.getLsbD).foldr xor false := by
    simp [parity, List.range, List.range.loop]
  rw [odd, foldr_xor_eq_odd_countP]
  simp

/-- Settles O13: the bits by the operation, the flags from the result. -/
theorem logicFlags : Obligations.LogicFlags := by
  rintro op a b _ _ ⟨⟩
  refine ⟨fun k => ?bits, ?flags⟩
  case bits => cases op <;> simp
  case flags => simp [flagsOf]

/-- Settles O16: the bits of the two flag bytes. -/
theorem rotateFlags : Obligations.RotateFlags := by
  constructor
  · rintro cout fold _ rfl
    simp [rotAFlags]
  · rintro r _ cout rfl
    simp [rotFlags, flagsOf]

/-- Settles O18: the bits of the three flag bytes. -/
theorem bitTestAndBlockFlags : Obligations.BitTestAndBlockFlags := by
  refine ⟨?bitTest, ?transfer, ?compare⟩
  case bitTest =>
    rintro b x fold _ rfl
    by_cases top : b = 7 <;> simp [bitFlags, top]
  case transfer =>
    rintro bc fold _ rfl
    simp [ldblockFlags]
  case compare =>
    rintro a m fold _ g r bc subtracted rfl
    simp [cpblockFlags, subtracted]

/-! WriteF (R131). -/

/-- Under `XY_POLICY = draw`, the mask 0x28 picks bits 5 and 3 from the drawn byte. -/
theorem writeF_of_draw {s : State} (f : Byte) (policy : s.platform.xyPolicy = .draw) :
    writeF f s = { s with f := (f &&& 0xD7) ||| (Config.xyDraw s.draws &&& 0x28), draws := s.draws + 1 } := by
  simp [writeF, policy, xyMask]

/-- Settles O19: the byte is the one drawn. -/
theorem writeFFollowsThePolicy : Obligations.WriteFFollowsThePolicy := fun f s =>
  ⟨writeF_of_result s f, fun policy => ⟨Config.xyDraw s.draws, writeF_of_draw f policy⟩⟩

end Sys2Proof.Machine
end

section
/-! SUPPORT. The address resolver family (spec/41_address_resolver.md): a word plus a sign-extended displacement is the
exact integer sum mod 65536 (R163, R164). -/

namespace Sys2Proof.Machine

/-- The displacement enters as its two's complement value, and the sum wraps at 16 bits. -/
theorem toNat_add_sext16 (base : Word) (d : Byte) :
    ((base + sext16 d).toNat : Int) = (base.toNat + d.toInt) % 65536 := by
  have exactSum : base + sext16 d = BitVec.ofInt 16 (base.toNat + d.toInt) := by
    simp [BitVec.ofInt_add, sext16, BitVec.signExtend]
  rw [exactSum]
  exact toNat_ofInt_eq_emod ..

theorem toNat_nextPc (n : Nat) (s : State) : (nextPc n s).toNat = (s.pc.toNat + n) % 65536 := by
  simp [nextPc]

/-- Settles O24: both addresses are a word plus a sign-extended byte; for EA_REL the word is itself a sum mod 65536,
which the outer wrap absorbs. -/
theorem effectiveAddressesWrap : Obligations.EffectiveAddressesWrap := by
  refine fun s d => ⟨fun i => toNat_add_sext16 (getIdx i s) d, ?relative, rfl, fun _ => rfl⟩
  calc ((eaRel d s).toNat : Int)
    _ = ((nextPc 2 s).toNat + d.toInt) % 65536 := toNat_add_sext16 (nextPc 2 s) d
    _ = (s.pc.toNat + 2 + d.toInt) % 65536 := by
      rw [toNat_nextPc]
      push_cast
      exact Int.emod_add_emod ..

end Sys2Proof.Machine
end

section
/-! SUPPORT. The load family (spec/42_load.md): what an instruction that writes a register, one that stores a byte and
one that stores a word answer, in the vocabulary of the claims. -/

namespace Sys2Proof.Machine
open Sys2Proof.Claims

/-! A register is written, and beside it at most F, the draws, pc and the history. -/

section Becomes
variable {s t : State}

theorem r8Becomes_of_setR8 {dst : Reg8} {v : Byte} (frame : t = { setR8 dst v s with
    f := t.f, draws := t.draws, pc := t.pc, history := t.history }) : r8Becomes dst v s t := by
  have reads := fun q => getR8_setR8 s dst q v
  rw [frame]
  cases dst <;> exact ⟨rfl, fun q other => (reads q).trans (if_neg other), rfl⟩

theorem getPair_setPair_of_ne {p q : Pair} (other : q ≠ p) (v : Word) (s : State) :
    getPair q (setPair p v s) = getPair q s := by
  cases p <;> cases q <;> trivial

theorem pairBecomes_of_setPair {p : Pair} {v : Word} (frame : t = { setPair p v s with
    f := t.f, draws := t.draws, pc := t.pc, history := t.history }) : pairBecomes p v s t := by
  have reads := getPair_setPair p v s
  have others := fun q (other : q ≠ p) => getPair_setPair_of_ne other v s
  rw [frame]
  cases p <;> exact ⟨reads, others, rfl⟩

theorem idxBecomes_of_setIdx {i : Idx} {v : Word} (frame : t = { setIdx i v s with
    f := t.f, draws := t.draws, pc := t.pc, history := t.history }) : idxBecomes i v s t := by
  have reads := fun j => getIdx_setIdx s i j v
  rw [frame]
  cases i <;> exact ⟨rfl, fun j other => (reads j).trans (if_neg other), rfl⟩

end Becomes

/-! The register is written after reads that have left `history`, and the instruction of `n` bytes ends (R12). -/

section Finish
variable (s : State) (history : List Access) (n : Nat)

theorem finish_setR8 (dst : Reg8) (v : Byte) :
    ∃ t, finish n (setR8 dst v { s with history := history }) = .next t ∧ r8Becomes dst v s t ∧ sameFlags s t ∧
      t.pc = nextPc n s ∧ t.history = history := by
  cases dst <;> exact ⟨_, rfl, r8Becomes_of_setR8 rfl, ⟨rfl, rfl⟩, rfl, rfl⟩

theorem finish_setPair (p : Pair) (v : Word) :
    ∃ t, finish n (setPair p v { s with history := history }) = .next t ∧ pairBecomes p v s t ∧ sameFlags s t ∧
      t.pc = nextPc n s ∧ t.history = history := by
  cases p <;> exact ⟨_, rfl, pairBecomes_of_setPair rfl, ⟨rfl, rfl⟩, rfl, rfl⟩

theorem finish_setIdx (i : Idx) (v : Word) :
    ∃ t, finish n (setIdx i v { s with history := history }) = .next t ∧ idxBecomes i v s t ∧ sameFlags s t ∧
      t.pc = nextPc n s ∧ t.history = history := by
  cases i <;> exact ⟨_, rfl, idxBecomes_of_setIdx rfl, ⟨rfl, rfl⟩, rfl, rfl⟩

theorem loadR8_loadsByte (dst : Reg8) (addr : Word) : loadsByte dst addr n s (loadR8 dst addr n s) :=
  finish_setR8 s (.memRead addr (peek s addr) :: s.history) n dst (peek s addr)

end Finish

/-! Stores. The platform accepts a write or rejects it (R402); `before` are the accesses made before it. -/

section Stores
variable {s t : State} {before : List Access} {done : State → Prop}

/-- A write of `v` to `addr` and then at most F, the draws and pc: the two outcomes of `storesByte`. -/
theorem storesByte_ite {addr : Word} {v : Byte}
    (frame : t = { stored addr v s with
      f := t.f, draws := t.draws, pc := t.pc, history := .memWrite addr v :: before }) (finished : done t) :
    storesByte addr v before s
      (if accepts s addr then .next t else raiseViolation .unmappedWrite addr v { s with history := before }) done := by
  refine ⟨fun accepted => ⟨t, if_pos accepted, fun x => ?reads, ?keeps, finished⟩, fun refused => ?violates⟩
  case reads => rw [← peek_stored, frame]; rfl
  case keeps => rw [frame]; rfl
  case violates => rw [refused]; rfl

/-- Two writes, `v1` to `a1` and then `v2` to `a2`: the three outcomes of `storesTwo`. -/
theorem storesTwo_ite {a1 a2 : Word} {v1 v2 : Byte}
    (memory : t.mem = (stored a2 v2 (stored a1 v1 s)).mem) (platform : t.platform = s.platform)
    (history : t.history = .memWrite a2 v2 :: .memWrite a1 v1 :: before) (finished : done t) :
    storesTwo a1 v1 a2 v2 before s
      (if accepts s a1 then
        if accepts s a2 then .next t
        else raiseViolation .unmappedWrite a2 v2 (stored a1 v1 { s with history := before })
      else raiseViolation .unmappedWrite a1 v1 { s with history := before }) done := by
  refine ⟨fun first second => ?both, fun refused => ?none, fun first refused => ?one⟩
  case both =>
    have reads : peek t = peek (stored a2 v2 (stored a1 v1 s)) := peek_congr memory platform
    rw [first, second]
    refine ⟨t, rfl, fun x => ?_, history, finished⟩
    rw [reads, peek_stored]
    simp only [readsAfter, peek_stored, memKind_stored]
  case none => rw [refused]; rfl
  case one =>
    rw [first, refused]
    exact ⟨_, rfl, peek_stored a1 v1 s, rfl⟩

end Stores

theorem storeByte_storesByte (addr : Word) (v : Byte) (n : Nat) (s : State) :
    storesByte addr v s.history s (storeByte addr v n s) fun t => sameFlags s t ∧ t.pc = nextPc n s := by
  rw [storeByte_eq]
  exact storesByte_ite rfl ⟨⟨rfl, rfl⟩, rfl⟩

theorem storeWord_storesTwo (addr v : Word) (n : Nat) (s : State) :
    storesTwo addr (loByte v) (addr + 1) (hiByte v) s.history s (storeWord addr v n s) fun t =>
      t = { s with mem := t.mem, pc := nextPc n s, history := t.history } := by
  rw [storeWord_eq]
  exact storesTwo_ite rfl rfl rfl rfl

/-! The instructions. -/

/-- An opcode byte given by its fields, as the number it is (R92, R101). -/
theorem opXyz_eq_ofNat {x y z n : Nat} (sum : 64 * x + 8 * y + z = n) : opXyz x y z = BitVec.ofNat 8 n :=
  congrArg (BitVec.ofNat 8) sum

theorem opXpqz_eq_ofNat {x p q z n : Nat} (sum : 64 * x + 8 * (2 * p + q) + z = n) :
    opXpqz x p q z = BitVec.ofNat 8 n :=
  opXyz_eq_ofNat sum

/-- Settles O28: each instruction is a `storeByte`. -/
theorem storeByteToMemory : Obligations.StoreByteToMemory := fun r i d n nn s =>
  ⟨rfl, rfl, rfl, rfl, rfl, rfl, rfl,
    storeByte_storesByte (getHl s) (getR8 r s) 1 s, storeByte_storesByte (getHl s) n 2 s,
    storeByte_storesByte (eaIdx i d s) (getR8 r s) 3 s, storeByte_storesByte (eaIdx i d s) n 4 s,
    storeByte_storesByte (getBc s) s.a 1 s, storeByte_storesByte (getDe s) s.a 1 s,
    storeByte_storesByte nn s.a 3 s⟩

/-- Settles O31: each instruction is a `storeWord`; the halves of HL are H and L. -/
theorem storeWordToMemory : Obligations.StoreWordToMemory := by
  intro p i nn s
  have opcode : opXpqz 1 (pairCode p) 0 3 = BitVec.ofNat 8 (0x43 + 16 * pairCode p) := opXpqz_eq_ofNat (by omega)
  have low : loByte (getHl s) = s.l := loByte_mkWord s.h s.l
  have high : hiByte (getHl s) = s.h := hiByte_mkWord s.h s.l
  have storesHl := storeWord_storesTwo nn (getHl s) 3 s
  rw [low, high] at storesHl
  exact ⟨rfl, congrArg ([0xED, ·, loByte nn, hiByte nn]) opcode, rfl, storesHl,
    storeWord_storesTwo nn (getPair p s) 4 s, storeWord_storesTwo nn (getIdx i s) 4 s⟩

/-- Settles O26: each instruction ends with `setR8`. -/
theorem loadRegisterFromRegisterOrImmediate : Obligations.LoadRegisterFromRegisterOrImmediate := by
  intro dst src n s
  have opcode : opXyz 0 (reg8Code dst) 6 = BitVec.ofNat 8 (0x06 + 8 * reg8Code dst) := opXyz_eq_ofNat (by omega)
  exact ⟨rfl, congrArg ([·, n]) opcode, finish_setR8 s s.history 1 dst (getR8 src s),
    finish_setR8 s s.history 2 dst n⟩

/-- Settles O27: each instruction is a `loadR8`. -/
theorem loadByteFromMemory : Obligations.LoadByteFromMemory := by
  intro r i d nn s
  have opcode : opXyz 1 (reg8Code r) 6 = BitVec.ofNat 8 (0x46 + 8 * reg8Code r) := opXyz_eq_ofNat (by omega)
  exact ⟨congrArg ([·]) opcode, congrArg ([idxPrefix i, ·, d]) opcode, rfl, rfl, rfl,
    loadR8_loadsByte s 1 r (getHl s), loadR8_loadsByte s 3 r (eaIdx i d s), loadR8_loadsByte s 1 .a (getBc s),
    loadR8_loadsByte s 1 .a (getDe s), loadR8_loadsByte s 3 .a nn⟩

/-- Settles O29: each instruction ends with `setPair`, `setIdx` or `setSp`. -/
theorem loadWordRegisters : Obligations.LoadWordRegisters := by
  intro p i nn s
  have opcode : opXpqz 0 (pairCode p) 0 1 = BitVec.ofNat 8 (0x01 + 16 * pairCode p) := opXpqz_eq_ofNat (by omega)
  exact ⟨congrArg ([·, loByte nn, hiByte nn]) opcode, rfl, rfl, rfl, finish_setPair s s.history 3 p nn,
    finish_setIdx s s.history 4 i nn, rfl, rfl⟩

/-- Settles O30: each instruction ends with `setPair` or `setIdx`, after the two reads of `memRead2`. -/
theorem loadWordFromMemory : Obligations.LoadWordFromMemory := by
  intro p i nn s
  have opcode : opXpqz 1 (pairCode p) 1 3 = BitVec.ofNat 8 (0x4B + 16 * pairCode p) := opXpqz_eq_ofNat (by omega)
  exact ⟨rfl, congrArg ([0xED, ·, loByte nn, hiByte nn]) opcode, rfl,
    finish_setPair s (readWord s nn) 3 .hl (wordAt s nn), finish_setPair s (readWord s nn) 4 p (wordAt s nn),
    finish_setIdx s (readWord s nn) 4 i (wordAt s nn)⟩

end Sys2Proof.Machine
end

section
/-! SUPPORT. The arithmetic and logic family (spec/43_arithmetic_logic.md): what an instruction that writes a result and
then its flags answers, in the vocabulary of the claims; the eight accumulator operations as one. -/

namespace Sys2Proof.Machine
open Sys2Proof.Claims

/-- `WriteF` as an update of F and the draws: the two values are all that depends on the policy (R131). -/
theorem exists_writeF_eq (f : Byte) (s : State) :
    ∃ f' draws, writeF f s = { s with f := f', draws := draws } ∧
      flagsWritten f s { s with f := f', draws := draws } :=
  ⟨_, _, writeF_spec f s⟩

/-! The result is written, then F, and the instruction of `n` bytes ends (R12). -/

section FinishWriteF
variable (s : State) (f : Byte) (n : Nat)

theorem finish_writeF_setR8 (dst : Reg8) (v : Byte) :
    ∃ t, finish n (writeF f (setR8 dst v s)) = .next t ∧ r8Becomes dst v s t ∧ flagsWritten f s t ∧
      t.pc = nextPc n s ∧ t.history = s.history := by
  obtain ⟨f', draws, written, flags⟩ := exists_writeF_eq f (setR8 dst v s)
  rw [written]
  cases dst <;> exact ⟨_, rfl, r8Becomes_of_setR8 rfl, flags, rfl, rfl⟩

theorem finish_writeF_setHl (v : Word) :
    ∃ t, finish n (writeF f (setHl v s)) = .next t ∧ pairBecomes .hl v s t ∧ flagsWritten f s t ∧
      t.pc = nextPc n s ∧ t.history = s.history := by
  obtain ⟨f', draws, written, flags⟩ := exists_writeF_eq f (setHl v s)
  rw [written]
  exact ⟨_, rfl, pairBecomes_of_setPair rfl, flags, rfl, rfl⟩

theorem finish_writeF_setIdx (i : Idx) (v : Word) :
    ∃ t, finish n (writeF f (setIdx i v s)) = .next t ∧ idxBecomes i v s t ∧ flagsWritten f s t ∧
      t.pc = nextPc n s ∧ t.history = s.history := by
  obtain ⟨f', draws, written, flags⟩ := exists_writeF_eq f (setIdx i v s)
  rw [written]
  cases i <;> exact ⟨_, rfl, idxBecomes_of_setIdx rfl, flags, rfl, rfl⟩

/-- Of the registers only A is written, after reads that have left `history`. -/
theorem finish_writeF_acc (acc : Byte) (history : List Access) :
    ∃ t, finish n (writeF f { s with a := acc, history := history }) = .next t ∧ t.a = acc ∧ flagsWritten f s t ∧
      t.history = history ∧ t.pc = nextPc n s ∧
      t = { s with a := t.a, f := t.f, draws := t.draws, pc := t.pc, history := t.history } := by
  obtain ⟨f', draws, written, flags⟩ := exists_writeF_eq f { s with a := acc, history := history }
  rw [written]
  exact ⟨_, rfl, rfl, flags, rfl, rfl, rfl⟩

end FinishWriteF

/-- A read-modify-write (R168): one read, one write of the same address, and the flags only after an accepted write. -/
theorem modifyMem_storesByte (x : Loc) (g : Byte → Byte × Byte) (n : Nat) (s : State) :
    storesByte (locAddr x s) (g (peek s (locAddr x s))).1 (locHistory x s) s (modifyMem x g n s) fun t =>
      flagsWritten (g (peek s (locAddr x s))).2 s t ∧ t.pc = nextPc n s := by
  obtain ⟨f', draws, written, flags⟩ := exists_writeF_eq (g (peek s (locAddr x s))).2
    (stored (locAddr x s) (g (peek s (locAddr x s))).1 (memRead (locAddr x s) s).2)
  simp only [modifyMem_eq, written]
  exact storesByte_ite rfl ⟨flags, rfl⟩

/-! The eight accumulator operations, in their four forms. -/

/-- What an accumulator operation makes of A, the operand and F.C: the new A and the flags (R220 to R224, R239 to
R241). -/
def accResult : AccOp → Byte → Byte → Bool → Byte × Byte
  | .add, a, v, _ => add8 a v false
  | .adc, a, v, c => add8 a v c
  | .sub, a, v, _ => sub8 a v false
  | .sbc, a, v, c => sub8 a v c
  | .and, a, v, _ => logic8 .and a v
  | .xor, a, v, _ => logic8 .xor a v
  | .or, a, v, _ => logic8 .or a v
  | .cp, a, v, _ => (a, (sub8 a v false).2)

theorem readSrc_eq (x : Src) (s : State) : readSrc x s = (srcByte x s, { s with history := srcHistory x s }) := by
  cases x <;> rfl

/-- The operation's code is the field y of the opcode byte, and both sides compute to the same sum of fields. -/
theorem encode_accInstr (op : AccOp) (x : Src) : encode (accInstr op x) = accBytes op x := by
  cases op <;> cases x <;> rfl

/-- CP writes back the A it found, so it too is an `accOp`. -/
theorem exec_accInstr (op : AccOp) (x : Src) (s : State) :
    exec (accInstr op x) s = accOp (accResult op) x (srcLen x) s := by
  cases op <;> cases x <;> rfl

theorem accDone_accResult (op : AccOp) (x : Src) (s : State) :
    accDone op x (accResult op s.a (srcByte x s) (flagC s.f)).1 (accResult op s.a (srcByte x s) (flagC s.f)).2 s := by
  refine ⟨encode_accInstr op x, ?_⟩
  rw [exec_accInstr, accOp, readSrc_eq]
  exact finish_writeF_acc s _ (srcLen x) _ (srcHistory x s)

/-! Words plus and minus 1 as sums of naturals (R235 to R238). -/

theorem ofNat_toNat_add_one (w : Word) : BitVec.ofNat 16 (w.toNat + 1) = w + 1 := by bv_omega

/-- Lowering by 1 is adding 65535, mod 65536. -/
theorem ofNat_toNat_add_65535 (w : Word) : BitVec.ofNat 16 (w.toNat + 65535) = w - 1 := by bv_omega

/-! The instructions. -/

/-- Settles O35: the register forms end with `setR8` and WriteF, the memory forms are a `modifyMem`. -/
theorem incrementAndDecrementByte : Obligations.IncrementAndDecrementByte := by
  refine ⟨fun r s => ?register, fun s => ?atHl, fun i d s => ?indexed⟩
  case register =>
    have inc : opXyz 0 (reg8Code r) 4 = BitVec.ofNat 8 (0x04 + 8 * reg8Code r) := opXyz_eq_ofNat (by omega)
    have dec : opXyz 0 (reg8Code r) 5 = BitVec.ofNat 8 (0x05 + 8 * reg8Code r) := opXyz_eq_ofNat (by omega)
    exact ⟨congrArg ([·]) inc, congrArg ([·]) dec, finish_writeF_setR8 s _ 1 r _, finish_writeF_setR8 s _ 1 r _⟩
  case atHl =>
    exact ⟨rfl, rfl, modifyMem_storesByte .atHl (inc8 · s.f) 1 s, modifyMem_storesByte .atHl (dec8 · s.f) 1 s⟩
  case indexed =>
    exact ⟨rfl, rfl, modifyMem_storesByte (.atIdx i d) (inc8 · s.f) 3 s,
      modifyMem_storesByte (.atIdx i d) (dec8 · s.f) 3 s⟩

/-- Settles O32: ADD has carry-in 0, ADC F.C. -/
theorem addToAccumulator : Obligations.AddToAccumulator := fun x s =>
  ⟨accDone_accResult .add x s, accDone_accResult .adc x s⟩

/-- Settles O33: SUB has borrow-in 0, SBC F.C; CP leaves A. -/
theorem subtractFromAndCompareWithAccumulator : Obligations.SubtractFromAndCompareWithAccumulator := fun x s =>
  ⟨accDone_accResult .sub x s, accDone_accResult .sbc x s, accDone_accResult .cp x s⟩

/-- Settles O34: each of the three is an accumulator operation. -/
theorem logicOnAccumulator : Obligations.LogicOnAccumulator := fun x s =>
  ⟨accDone_accResult .and x s, accDone_accResult .or x s, accDone_accResult .xor x s⟩

/-- Settles O36: each instruction ends with `setHl` or `setIdx` and WriteF. -/
theorem sixteenBitArithmetic : Obligations.SixteenBitArithmetic := by
  intro p q i s
  have addHl : opXpqz 0 (pairCode p) 1 1 = BitVec.ofNat 8 (0x09 + 16 * pairCode p) := opXpqz_eq_ofNat (by omega)
  have addIdx : opXpqz 0 (pairXCode q) 1 1 = BitVec.ofNat 8 (0x09 + 16 * pairXCode q) := opXpqz_eq_ofNat (by omega)
  have adcHl : opXpqz 1 (pairCode p) 1 2 = BitVec.ofNat 8 (0x4A + 16 * pairCode p) := opXpqz_eq_ofNat (by omega)
  have sbcHl : opXpqz 1 (pairCode p) 0 2 = BitVec.ofNat 8 (0x42 + 16 * pairCode p) := opXpqz_eq_ofNat (by omega)
  exact ⟨congrArg ([·]) addHl, congrArg ([idxPrefix i, ·]) addIdx, congrArg ([0xED, ·]) adcHl,
    congrArg ([0xED, ·]) sbcHl, rfl, rfl, rfl, rfl, rfl, rfl, rfl, rfl, pairXOf_pairXCode,
    finish_writeF_setHl s _ 1 _, finish_writeF_setIdx s _ 2 i _, finish_writeF_setHl s _ 2 _,
    finish_writeF_setHl s _ 2 _⟩

/-- Settles O37: each instruction ends with `setPair` or `setIdx`, without WriteF. -/
theorem incrementAndDecrementWord : Obligations.IncrementAndDecrementWord := by
  intro p i s
  have inc : opXpqz 0 (pairCode p) 0 3 = BitVec.ofNat 8 (0x03 + 16 * pairCode p) := opXpqz_eq_ofNat (by omega)
  have dec : opXpqz 0 (pairCode p) 1 3 = BitVec.ofNat 8 (0x0B + 16 * pairCode p) := opXpqz_eq_ofNat (by omega)
  simp only [ofNat_toNat_add_one, ofNat_toNat_add_65535]
  exact ⟨congrArg ([·]) inc, congrArg ([·]) dec, rfl, rfl, finish_setPair s s.history 1 p _,
    finish_setPair s s.history 1 p _, finish_setIdx s s.history 2 i _, finish_setIdx s s.history 2 i _⟩

/-- Settles O38: the eight flags given for `f` are those of `cplFlags`. -/
theorem complementAccumulator : Obligations.ComplementAccumulator := by
  intro s f sign zero parity carry half negative bit5 bit3
  have flags : f = cplFlags (s.a ^^^ 0xFF) s.f := by
    rw [← packFlags_eta f, sign, zero, parity, carry, half, negative, bit5, bit3, cplFlags]
  obtain ⟨t, answer, acc, written, history, pc, frame⟩ := finish_writeF_acc s f 1 (s.a ^^^ 0xFF) s.history
  rw [history, pc] at frame
  rw [flags] at answer
  exact ⟨rfl, t, answer, acc, written, frame⟩

end Sys2Proof.Machine
end

section
/-! SUPPORT. The control-transfer family (spec/44_control_transfer.md): an instruction assigns its target to pc, or
goes on to the next one where its condition (R270) fails; a call pushes first (R278, R282), a return pops (R280). -/

namespace Sys2Proof.Machine
open Sys2Proof.Claims

/-! Calls and returns. -/

/-- The outcomes of a call are those of the push of the next address; `done` says of pc what holds of the target. -/
theorem callTo_pushes (n : Nat) {target : Word} {done : Word → Prop} (s : State) (finished : done target) :
    pushes (nextPc n s) s (callTo n target s) fun t => done t.pc := by
  rw [callTo_eq]
  refine storesTwo_ite rfl (by simp) (by simp) ⟨?frame, finished⟩
  case frame => unfold stored; rfl

/-- Settles O40: each taken call and RST is a `callTo`, the untaken one ends with `finish`. -/
theorem callsAndRestarts : Obligations.CallsAndRestarts := by
  intro cc nn p s
  have call : opXyz 3 (condCode cc) 4 = BitVec.ofNat 8 (0xC4 + 8 * condCode cc) := opXyz_eq_ofNat (by omega)
  have restart : opXyz 3 p.val 7 = BitVec.ofNat 8 (0xC7 + 8 * p.val) := opXyz_eq_ofNat (by omega)
  have vector : (BitVec.ofNat 16 (8 * p.val)).toNat = 8 * p.val := Nat.mod_eq_of_lt (by omega)
  have calls : pushes (s.pc + 3) s (callTo 3 nn s) fun t => t.pc = nn := callTo_pushes 3 (done := (· = nn)) s rfl
  refine ⟨rfl, congrArg ([·, loByte nn, hiByte nn]) call, congrArg ([·]) restart, calls, fun taken => ?taken,
    fun untaken => if_neg (Bool.eq_false_iff.mp untaken), callTo_pushes 1 (done := (·.toNat = 8 * p.val)) s vector⟩
  have answer : exec (.callCcNn cc nn) s = callTo 3 nn s := if_pos taken
  rwa [answer]

/-- Settles O41: a taken return is a `returnFrom`, the untaken one ends with `finish`. -/
theorem returns : Obligations.Returns := by
  intro cc s
  have opcode : opXyz 3 (condCode cc) 0 = BitVec.ofNat 8 (0xC0 + 8 * condCode cc) := opXyz_eq_ofNat (by omega)
  have answer : returnFrom s = .next
      { s with pc := wordAt s s.sp, sp := s.sp + 2, history := readWord s s.sp } := by
    rw [returnFrom_eq, pop16_eq]
    rfl
  exact ⟨rfl, congrArg ([·]) opcode, answer, fun taken => (if_pos taken).trans answer,
    fun untaken => if_neg (Bool.eq_false_iff.mp untaken)⟩

/-! Conditions and jumps. -/

/-- JR takes the conditions of the first four codes (R270, R276). -/
theorem forJr_iff_condCode_lt (cc : Cond) : cc.forJr = true ↔ condCode cc < 4 := by cases cc <;> decide

/-- Settles O25: the conditions with even codes hold when their flag is 0, the others when it is 1. -/
theorem conditionsTestTheirFlag : Obligations.ConditionsTestTheirFlag := by
  intro s
  have whenClear (flag : Bool) : (!flag) = true ↔ flag = false := (Bool.not_eq_true' flag).to_iff
  exact ⟨whenClear _, .rfl, whenClear _, .rfl, whenClear _, .rfl, whenClear _, .rfl,
    fun n => condCode_condOf n.isLt, rfl, rfl, rfl, rfl, rfl, rfl, rfl, rfl, fun cc _ => forJr_iff_condCode_lt cc⟩

/-- A jump taken on `p` and otherwise past is one assignment to pc. -/
theorem ite_setPc (p : Prop) [Decidable p] (taken untaken : Word) (s : State) :
    (if p then .next (setPc taken s) else .next (setPc untaken s) : Out) =
      .next { s with pc := if p then taken else untaken } := by
  split <;> rfl

/-- The new B is 0 exactly if the old one is 1 (R277). -/
theorem execDjnzE_eq (e : Byte) (s : State) : execDjnzE e s = .next
    { s with b := s.b - 1, pc := if s.b = 1 then s.pc + 2 else s.pc + 2 + sext16 e } := by
  have branches : s.b - 1 ≠ 0 ↔ ¬ s.b = 1 := not_congr sub_eq_zero
  calc execDjnzE e s
    _ = .next { s with b := s.b - 1, pc := if s.b - 1 ≠ 0 then s.pc + 2 + sext16 e else s.pc + 2 } :=
      ite_setPc (s.b - 1 ≠ 0) _ _ { s with b := s.b - 1 }
    _ = .next { s with b := s.b - 1, pc := if s.b = 1 then s.pc + 2 else s.pc + 2 + sext16 e } := by
      simp only [branches, ite_not]

/-- Settles O39: each jump assigns its target to pc, or the address of the next instruction. -/
theorem jumpsAndBranches : Obligations.JumpsAndBranches := by
  intro cc nn i e s
  have jp : opXyz 3 (condCode cc) 2 = BitVec.ofNat 8 (0xC2 + 8 * condCode cc) := opXyz_eq_ofNat (by omega)
  have jr (encodes : condCode cc < 4) : opXyz 0 (4 + condCode cc % 4) 0 = BitVec.ofNat 8 (0x20 + 8 * condCode cc) :=
    opXyz_eq_ofNat (by omega)
  exact ⟨rfl, congrArg ([·, loByte nn, hiByte nn]) jp, rfl, rfl, rfl,
    fun encodes => congrArg ([·, e]) (jr encodes), rfl, rfl, ite_setPc (condHolds cc s = true) _ _ s, rfl, rfl, rfl,
    ite_setPc (condHolds cc s = true) _ _ s, execDjnzE_eq e s⟩

end Sys2Proof.Machine
end

section
/-! SUPPORT. The stack and exchange family (spec/45_stack_exchange.md): the outcomes of a push and of an exchange with
the stack top are those of their two writes (R290, R299); a pop reads them back (R291). -/

namespace Sys2Proof.Machine
open Sys2Proof.Claims

/-! The stack primitives. -/

theorem push16_pushes (v : Word) (s : State) : pushes v s (push16 v s) fun t => t.pc = s.pc := by
  rw [push16_eq]
  refine storesTwo_ite rfl (by simp) (by simp) ⟨?frame, by simp⟩
  case frame => unfold stored; rfl

/-- Settles O22: the outcomes are those of the two writes. -/
theorem pushWritesHighThenLowThenLowersSp : Obligations.PushWritesHighThenLowThenLowersSp := push16_pushes

theorem accepts_of_ram {s : State} {addr : Word} (ram : memKind s addr = .ram) : accepts s addr = true := by
  rw [accepts, ram, kindAccepts]

theorem readsAfter_of_ram {s : State} {addr : Word} (ram : memKind s addr = .ram) (v : Byte) (before : Word → Byte)
    (x : Word) : readsAfter s addr v before x = if x = addr then v else before x := by
  simp [readsAfter, ram]

/-- Both writes to `ram` are accepted, and the two bytes are read back from different addresses. -/
theorem exists_push16_eq_next_of_ram (v : Word) {s : State} (high : memKind s (s.sp - 1) = .ram)
    (low : memKind s (s.sp - 2) = .ram) :
    ∃ t, push16 v s = .next t ∧ t.sp = s.sp - 2 ∧ wordAt t (s.sp - 2) = v := by
  obtain ⟨accepted, -, -⟩ := push16_pushes v s
  obtain ⟨t, answer, reads, -, frame, -⟩ := accepted (accepts_of_ram high) (accepts_of_ram low)
  have above : s.sp - 2 + 1 = s.sp - 1 := by bv_omega
  have apart : s.sp - 1 ≠ s.sp - 2 := by bv_omega
  refine ⟨t, answer, congrArg State.sp frame, ?_⟩
  calc wordAt t (s.sp - 2)
    _ = mkWord (peek t (s.sp - 1)) (peek t (s.sp - 2)) := by rw [wordAt, above]
    _ = mkWord (hiByte v) (loByte v) := by
      simp only [reads, readsAfter_of_ram high, readsAfter_of_ram low, if_neg apart, if_true]
    _ = v := mkWord_hiByte_loByte v

/-- Settles O23: the push leaves the word at the new SP, and the pop raises SP by the 2 it was lowered by. -/
theorem popUndoesPush : Obligations.PopUndoesPush := by
  refine fun v s => ⟨pop16_eq s, fun high low => ?_⟩
  obtain ⟨t, answer, sp, word⟩ := exists_push16_eq_next_of_ram v high low
  refine ⟨t, answer, sp, ?popped, ?restored⟩
  case popped => rwa [← sp] at word
  case restored =>
    calc (pop16 t).2.sp
      _ = t.sp + 2 := rfl
      _ = s.sp := by rw [sp, BitVec.sub_add_cancel]

/-! PUSH and POP. -/

/-- Only an accepted push reaches the end of the instruction (R12). -/
theorem pushes_andThen_finish {v : Word} {s : State} {o : Out} (n : Nat)
    (pushed : pushes v s o fun t => t.pc = s.pc) :
    pushes v s (andThen o (finish n)) fun t => t.pc = nextPc n s := by
  obtain ⟨accepted, firstRefused, secondRefused⟩ := pushed
  refine ⟨fun high low => ?both, fun refused => ?none, fun high refused => ?one⟩
  case both =>
    obtain ⟨t, rfl, reads, history, frame, pc⟩ := accepted high low
    refine ⟨advance n t, rfl, by simpa using reads, history, ?_, congrArg (· + BitVec.ofNat 16 n) pc⟩
    rw [frame]
    rfl
  case none => rw [firstRefused refused, andThen_fault]
  case one =>
    obtain ⟨u, rfl, left⟩ := secondRefused high refused
    exact ⟨u, rfl, left⟩

theorem getPair2_setPair2_of_ne {p q : Pair2} (other : q ≠ p) (v : Word) (s : State) :
    getPair2 q (setPair2 p v s) = getPair2 q s := by
  cases p <;> cases q <;> trivial

/-- The pair is written after reads that have left `history`, and the instruction of `n` bytes ends (R12). -/
theorem finish_setPair2 (s : State) (history : List Access) (n : Nat) (p : Pair2) (v : Word) :
    ∃ t, finish n (setPair2 p v { s with history := history }) = .next t ∧ getPair2 p t = v ∧
      (∀ q, q ≠ p → getPair2 q t = getPair2 q s) ∧
      t = { s with
        a := t.a, f := t.f, b := t.b, c := t.c, d := t.d, e := t.e, h := t.h, l := t.l
        pc := nextPc n s, history := history } := by
  have reads := getPair2_setPair2 p v s
  have others := fun q (other : q ≠ p) => getPair2_setPair2_of_ne other v s
  cases p <;> exact ⟨_, rfl, reads, others, rfl⟩

/-- Settles O42: PUSH is a push and the end of the instruction; POP ends with `setPair2` or `setIdx`. -/
theorem pushAndPop : Obligations.PushAndPop := by
  intro p i s
  have push : opXpqz 3 (pair2Code p) 0 5 = BitVec.ofNat 8 (0xC5 + 16 * pair2Code p) := opXpqz_eq_ofNat (by omega)
  have pop : opXpqz 3 (pair2Code p) 0 1 = BitVec.ofNat 8 (0xC1 + 16 * pair2Code p) := opXpqz_eq_ofNat (by omega)
  have popQq := finish_setPair2 { s with sp := s.sp + 2 } (readWord s s.sp) 1 p (wordAt s s.sp)
  have popIdx := finish_setIdx { s with sp := s.sp + 2 } (readWord s s.sp) 2 i (wordAt s s.sp)
  obtain ⟨t, answer, ⟨reads, others, frame⟩, ⟨f, draws⟩, pc, history⟩ := popIdx
  rw [f, draws, pc, history] at frame
  exact ⟨congrArg ([·]) push, congrArg ([·]) pop, rfl, rfl, pushes_andThen_finish 1 (push16_pushes _ s),
    pushes_andThen_finish 2 (push16_pushes _ s), popQq, t, answer, reads, others, frame⟩

/-! Exchanges. -/

/-- Settles O43: each instruction is one assignment to the registers and pc. -/
theorem registerExchanges : Obligations.RegisterExchanges := fun _ => ⟨rfl, rfl, rfl, rfl, rfl, rfl⟩

/-- The outcomes of an exchange are those of the two writes, after the two reads; `u` is the state after them, in which
the register is assigned. -/
theorem exchangeSp_storesTwo (v : Word) {set : Word → State → State} (n : Nat) (s : State) {done : State → Prop}
    (memory : ∀ w u, (set w u).mem = u.mem) (platform : ∀ w u, (set w u).platform = u.platform)
    (history : ∀ w u, (set w u).history = u.history)
    (finished : ∀ u, u = { s with mem := u.mem, history := u.history } →
      done (advance n (set (wordAt s s.sp) u))) :
    storesTwo s.sp (loByte v) (s.sp + 1) (hiByte v) (readWord s s.sp) s (exchangeSp v set n s) done := by
  rw [exchangeSp_eq]
  exact storesTwo_ite (memory _ _) (platform _ _) (history _ _) (finished _ rfl)

/-- Settles O44: each instruction is an `exchangeSp`; the halves of HL are H and L. -/
theorem exchangeWithTheStackTop : Obligations.ExchangeWithTheStackTop := by
  refine fun i s => ⟨rfl, rfl, ?hl, ?idx⟩
  case hl =>
    have low : loByte (getHl s) = s.l := loByte_mkWord s.h s.l
    have high : hiByte (getHl s) = s.h := hiByte_mkWord s.h s.l
    have h : hiByte (wordAt s s.sp) = peek s (s.sp + 1) := hiByte_mkWord ..
    have l : loByte (wordAt s s.sp) = peek s s.sp := loByte_mkWord ..
    rw [← low, ← high]
    refine exchangeSp_storesTwo _ 1 s (fun _ _ => rfl) (fun _ _ => rfl) (fun _ _ => rfl) fun u frame => ⟨h, l, ?_⟩
    rw [frame]
    rfl
  case idx =>
    refine exchangeSp_storesTwo _ 2 s (by simp) (by simp) (by simp) fun u frame => ?_
    have becomes : idxBecomes i (wordAt s s.sp) u (advance 2 (setIdx i (wordAt s s.sp) u)) :=
      idxBecomes_of_setIdx (by cases i <;> rfl)
    rw [frame] at becomes ⊢
    obtain ⟨reads, others, -⟩ := becomes
    exact ⟨reads, others, by cases i <;> rfl⟩

end Sys2Proof.Machine
end

section
/-! SUPPORT. The rotate and shift family (spec/46_rotate_shift.md): the two movements of a byte by one bit as arithmetic
and as bit vectors (R314), and the three forms of the instructions, each one operation for all of them. -/

namespace Sys2Proof.Machine
open Sys2Proof.Claims

/-! The two movements as arithmetic. -/

section Arithmetic
variable (v : Byte) (bit : Bool)

theorem toNat_shiftLeft : (shiftLeft v bit).toNat = 2 * v.toNat % 256 + bit.toNat := by
  have entering := bit.toNat_le
  rw [shiftLeft, BitVec.toNat_ofNat]
  omega

theorem toNat_shiftRight : (shiftRight v bit).toNat = v.toNat / 2 + 128 * bit.toNat := by
  have entering := bit.toNat_le
  rw [shiftRight, BitVec.toNat_ofNat]
  omega

theorem toNat_getLsbD_7 : (v.getLsbD 7).toNat = v.toNat / 128 := by
  rw [BitVec.getLsbD, Nat.toNat_testBit]
  omega

theorem toNat_getLsbD_0 : (v.getLsbD 0).toNat = v.toNat % 2 := by
  rw [BitVec.getLsbD, Nat.toNat_testBit]
  omega

theorem getLsbD_7_iff : v.getLsbD 7 = true ↔ v.toNat ≥ 128 := by
  rw [← Bool.toNat_eq_one, toNat_getLsbD_7]
  omega

theorem getLsbD_0_iff : v.getLsbD 0 = true ↔ v.toNat % 2 = 1 := by
  rw [← Bool.toNat_eq_one, toNat_getLsbD_0]

end Arithmetic

/-- Settles O17: each operation is one of the two movements, the bit that leaves is bit 7 or bit 0. -/
theorem shiftFunctionIsArithmetic : Obligations.ShiftFunctionIsArithmetic := by
  intro v cin
  refine ⟨?rlc, ?rrc, toNat_shiftLeft v cin, toNat_shiftRight v cin, toNat_shiftLeft v false, ?sra,
    toNat_shiftLeft v true, toNat_shiftRight v false, ?left, ?right⟩
  case rlc => rw [← toNat_getLsbD_7]; exact toNat_shiftLeft v _
  case rrc => rw [← toNat_getLsbD_0]; exact toNat_shiftRight v _
  case sra => rw [← toNat_getLsbD_7]; exact toNat_shiftRight v _
  case left => rintro _ (rfl | rfl | rfl | rfl) <;> exact getLsbD_7_iff v
  case right => rintro _ (rfl | rfl | rfl | rfl) <;> exact getLsbD_0_iff v

/-! The two movements as bit vectors: the entering bit fills the one place that the movement leaves empty, so that the
sum of the two is their disjunction. -/

section Bits
variable (v : Byte) (bit : Bool)

theorem setWidth_ofBool_eq : (BitVec.ofBool bit).setWidth 8 = BitVec.ofNat 8 bit.toNat := by cases bit <;> rfl

theorem shiftLeft_eq : shiftLeft v bit = (v <<< 1) ||| (BitVec.ofBool bit).setWidth 8 := by
  have disjoint : 2 ^ 1 * v.toNat + bit.toNat = 2 ^ 1 * v.toNat ||| bit.toNat :=
    Nat.two_pow_add_eq_or_of_lt bit.toNat_lt _
  have moved : BitVec.ofNat 8 (2 ^ 1 * v.toNat) = v <<< 1 := by bv_omega
  calc shiftLeft v bit
    _ = BitVec.ofNat 8 (2 ^ 1 * v.toNat ||| bit.toNat) := congrArg (BitVec.ofNat 8) disjoint
    _ = (v <<< 1) ||| (BitVec.ofBool bit).setWidth 8 := by rw [BitVec.ofNat_or, moved, setWidth_ofBool_eq]

theorem shiftRight_eq : shiftRight v bit = ((BitVec.ofBool bit).setWidth 8 <<< 7) ||| (v >>> 1) := by
  have disjoint : 2 ^ 7 * bit.toNat + v.toNat / 2 = 2 ^ 7 * bit.toNat ||| v.toNat / 2 :=
    Nat.two_pow_add_eq_or_of_lt (by omega) _
  have entering : BitVec.ofNat 8 (2 ^ 7 * bit.toNat) = BitVec.ofNat 8 bit.toNat <<< 7 := by bv_omega
  have moved : BitVec.ofNat 8 (v.toNat / 2) = v >>> 1 := by bv_omega
  calc shiftRight v bit
    _ = BitVec.ofNat 8 (2 ^ 7 * bit.toNat ||| v.toNat / 2) := congrArg (BitVec.ofNat 8) disjoint
    _ = ((BitVec.ofBool bit).setWidth 8 <<< 7) ||| (v >>> 1) := by
      rw [BitVec.ofNat_or, entering, moved, setWidth_ofBool_eq]

theorem setWidth_getLsbD_7 : (BitVec.ofBool (v.getLsbD 7)).setWidth 8 = v >>> 7 := by
  rw [setWidth_ofBool_eq, toNat_getLsbD_7]
  bv_omega

theorem setWidth_getLsbD_0_shiftLeft_7 : (BitVec.ofBool (v.getLsbD 0)).setWidth 8 <<< 7 = v <<< 7 := by
  rw [setWidth_ofBool_eq, toNat_getLsbD_0]
  bv_omega

/-- Moving a byte right and back clears all bits but bit 7. -/
theorem shiftRight_7_shiftLeft_7 : v >>> 7 <<< 7 = v &&& 0x80 := by
  have masked : (v &&& 0x80).toNat = (v.getLsbD 7).toNat * 2 ^ 7 := Nat.and_two_pow v.toNat 7
  rw [toNat_getLsbD_7] at masked
  bv_omega

end Bits

/-! The instructions. -/

theorem encode_shiftReg (op : ShiftOp) (r : Reg8) :
    encode (shiftReg op r) = [0xCB, BitVec.ofNat 8 (8 * shiftCode op + reg8Code r)] := by
  cases op <;> rfl

theorem encode_shiftMem (op : ShiftOp) (x : Loc) : encode (shiftMem op x) = cbBytes (8 * shiftCode op + 6) x := by
  cases op <;> cases x <;> rfl

theorem exec_shiftReg (op : ShiftOp) (r : Reg8) (s : State) :
    exec (shiftReg op r) s = modifyReg r (shiftFlags op (carry s)) 2 s := by
  cases op <;> rfl

theorem exec_shiftMem (op : ShiftOp) (x : Loc) (s : State) :
    exec (shiftMem op x) s = modifyMem x (shiftFlags op (carry s)) (cbLen x) s := by
  cases op <;> cases x <;> rfl

/-- Only A, F, the draws and pc change (R310 to R313). -/
theorem rotateA_spec (op : ShiftOp) (s : State) :
    ∃ t, rotateA op s = .next t ∧ t.a = (shift op s.a (flagC s.f)).1 ∧
      flagsWritten (rotAFlags (shift op s.a (flagC s.f)).2 s.f) s t ∧
      t = { s with a := t.a, f := t.f, draws := t.draws, pc := s.pc + 1 } := by
  obtain ⟨t, answer, acc, flags, history, pc, frame⟩ := finish_writeF_acc s
    (rotAFlags (shift op s.a (flagC s.f)).2 s.f) 1 (shift op s.a (flagC s.f)).1 s.history
  rw [history, pc] at frame
  exact ⟨t, answer, acc, flags, frame⟩

/-- Settles O45: each instruction is a `rotateA`. -/
theorem accumulatorRotates : Obligations.AccumulatorRotates := fun s =>
  ⟨rfl, rotateA_spec .rlc s, rfl, rotateA_spec .rrc s, rfl, rotateA_spec .rl s, rfl, rotateA_spec .rr s⟩

/-- Settles O46: the rows of the table are the two movements with their entering bit; the register form ends
with `setR8` and WriteF, the memory forms are a `modifyMem`. -/
theorem rotateAndShiftRegisterOrMemory : Obligations.RotateAndShiftRegisterOrMemory := by
  refine ⟨fun v cin => ?table, fun op r s => ?register, fun op x s => ?memory⟩
  case table =>
    simp only [shift, shiftLeft_eq, shiftRight_eq, setWidth_getLsbD_7, setWidth_getLsbD_0_shiftLeft_7,
      shiftRight_7_shiftLeft_7]
    simp -- the three rows in which a constant bit enters
  case register =>
    refine ⟨encode_shiftReg op r, ?_⟩
    rw [exec_shiftReg]
    exact finish_writeF_setR8 s _ 2 r _
  case memory =>
    refine ⟨encode_shiftMem op x, ?_⟩
    rw [exec_shiftMem]
    exact modifyMem_storesByte x (shiftFlags op (carry s)) (cbLen x) s

end Sys2Proof.Machine
end

section
/-! SUPPORT. The exceptions family (spec/60_exceptions.md): how an instruction can end (R402, R403), and the steps that
run no instruction (R401, R407). -/

namespace Sys2Proof.Machine
open Sys2Proof.Claims

/-! Every instruction answers a next state or ends at a write that the platform rejects. -/

/-- `u` is a state in the middle of an instruction that began in `s`: F and pc come last in every rule that can still
write (R402), and the control part stays. -/
structure Midway (s u : State) : Prop where
  control : controlPart u = controlPart s
  f : u.f = s.f
  pc : u.pc = s.pc

/-- A part of an instruction that began in `s` answers a next state that satisfies `P`, or, if the instruction
`writes`, it stops at a write that the platform rejects, with what was done before it (R402). -/
inductive Ends (writes : Bool) (s : State) (P : State → Prop) : Out → Prop
  | next {t : State} : P t → Ends writes s P (.next t)
  | violation {u : State} (kind : Violation) (target : Word) (v : Byte) (allowed : writes = true)
      (rejects : neverRejects s.platform = false) (midway : Midway s u) :
      Ends writes s P (.fault (.contractViolation { u with fault := .contractViolation s.pc kind target v }))

section Ends
variable {writes : Bool} {s u : State} {o o' : Out} {P Q : State → Prop} {k : State → Out}

theorem Midway.refl (s : State) : Midway s s := ⟨rfl, rfl, rfl⟩

theorem Midway.trans {t : State} (first : Midway s t) (second : Midway t u) : Midway s u where
  control := second.control.trans first.control
  f := second.f.trans first.f
  pc := second.pc.trans first.pc

theorem Midway.platform (h : Midway s u) : u.platform = s.platform := by
  have same := congrArg State.platform h.control
  exact same

theorem Ends.andThen (ho : Ends writes s P o) (hk : ∀ t, P t → Ends writes s Q (k t)) :
    Ends writes s Q (andThen o k) := by
  cases ho with
  | next h => exact hk _ h
  | violation kind target v allowed rejects midway => exact .violation kind target v allowed rejects midway

theorem Ends.ite {c : Prop} [Decidable c] (ho : Ends writes s P o) (ho' : Ends writes s P o') :
    Ends writes s P (if c then o else o') := by
  split
  · exact ho
  · exact ho'

/-- A part after which nothing can be rejected. -/
theorem Ends.andThen_next (ho : Ends writes s P o) {g : State → State} :
    Ends writes s (fun _ => True) (Machine.andThen o fun t => .next (g t)) :=
  ho.andThen fun _ _ => .next trivial

end Ends

/-! The operations that write, at a point midway through the instruction. -/

section Writes
variable {s u : State} (h : Midway s u)
include h

theorem raiseViolation_ends (kind : Violation) (target : Word) (v : Byte) {P : State → Prop}
    (rejects : neverRejects u.platform = false) : Ends true s P (raiseViolation kind target v u) := by
  have stops := Ends.violation (P := P) kind target v rfl (h.platform ▸ rejects) h
  rwa [← h.pc] at stops

theorem memWrite_ends (a : Word) (v : Byte) : Ends true s (Midway s) (memWrite a v u) := by
  rw [memWrite_eq]
  split_ifs with accepted
  · exact .next (h.trans ⟨rfl, rfl, rfl⟩)
  · exact raiseViolation_ends h _ _ _ (Bool.eq_false_iff.mpr fun never => accepted (accepts_of_neverRejects u never a))

theorem ioWrite_ends (port v : Byte) : Ends true s (Midway s) (ioWrite port v u) := by
  rw [ioWrite_eq]
  split_ifs with rejected
  · refine raiseViolation_ends h _ _ _ ?_
    have listed : u.platform.rejectedPorts.isEmpty = false := List.isEmpty_eq_false_iff_exists_mem.mpr ⟨port, rejected⟩
    rw [neverRejects, listed, Bool.false_and]
  · exact .next (h.trans ⟨rfl, rfl, rfl⟩)

theorem memWrite2_ends (a v : Word) : Ends true s (Midway s) (memWrite2 a v u) :=
  (memWrite_ends h a _).andThen fun _ h => memWrite_ends h (a + 1) _

theorem push16_ends (v : Word) : Ends true s (Midway s) (push16 v u) :=
  (memWrite_ends h _ _).andThen fun _ h => (memWrite_ends h _ _).andThen fun _ h => .next (h.trans ⟨rfl, rfl, rfl⟩)

theorem transferOnce_ends (step : Word) : Ends true s (Midway s) (transferOnce step u) := by
  refine (memWrite_ends (u := (memRead (getHl u) u).2) (h.trans ⟨rfl, rfl, rfl⟩) _ _).andThen fun t h => .next ?_
  exact h.trans ⟨rfl, rfl, rfl⟩

theorem transferLoop_ends (step : Word) (more : Nat) : Ends true s (Midway s) (transferLoop step more u) := by
  induction more generalizing u with
  | zero => exact transferOnce_ends h step
  | succ more ih => exact (transferOnce_ends h step).andThen fun _ h => .ite (.next h) (ih h)

end Writes

/-- Every instruction answers a next state, or it is one of those that write (R403) and stops at a rejected write. -/
theorem exec_ends (i : Instr) (s : State) : Ends (canViolate i) s (fun _ => True) (exec i s) := by
  have start := Midway.refl s
  have afterRead (x : Access) : Midway s (record x s) := ⟨rfl, rfl, rfl⟩
  have afterReads : Midway s (memRead2 s.sp s).2 := ⟨rfl, rfl, rfl⟩
  unfold exec
  cases i with
  | ldMHlR | ldMHlN | ldMIdxR | ldMIdxN | ldMBcA | ldMDeA | ldMNnA => exact (memWrite_ends start _ _).andThen_next
  | ldMNnHl | ldMNnDd | ldMNnIdx => exact (memWrite2_ends start _ _).andThen_next
  | incMHl | incMIdx | decMHl | decMIdx | rlcMHl | rlcMIdx | rrcMHl | rrcMIdx | rlMHl | rlMIdx
  | rrMHl | rrMIdx | slaMHl | slaMIdx | sraMHl | sraMIdx | sllMHl | sllMIdx | srlMHl | srlMIdx
  | setBMHl | setBMIdx | resBMHl | resBMIdx => exact (memWrite_ends (afterRead _) _ _).andThen_next
  | callNn | rstP | pushQq | pushIdx => exact (push16_ends start _).andThen_next
  | callCcNn => exact .ite (push16_ends start _).andThen_next (.next trivial)
  | exMSpHl | exMSpIdx => exact (memWrite2_ends afterReads _ _).andThen_next
  | ldi | ldd => exact (transferOnce_ends start _).andThen_next
  | ldir | lddr => exact (transferLoop_ends start _ _).andThen_next
  | outMNA => exact (ioWrite_ends start _ _).andThen_next
  -- The others write nothing: the branches of a test apart, their meaning is one next state.
  | jpCcNn | jrCcE | djnzE | retCc => exact .ite (.next trivial) (.next trivial)
  | _ => exact .next trivial

/-- Settles O56: where nothing is rejected an instruction ends with its next state, and by O59 no instruction changes
the platform or the fault status. -/
theorem everyInstructionCompletesWhereNothingIsRejected :
    Obligations.EveryInstructionCompletesWhereNothingIsRejected := by
  intro i s never
  have ends := exec_ends i s
  generalize answer : exec i s = o at ends
  cases ends with
  | next =>
    obtain ⟨platform, fault, -⟩ := controlAndShadowStateHaveFewWriters i s _ answer
    exact ⟨_, rfl, platform, fault⟩
  | violation kind target v allowed rejects =>
    rw [never] at rejects
    cases rejects

/-- Settles O57: of the ways an instruction ends, the fault is that of a rejected write, midway. -/
theorem onlyWritesCanViolate : Obligations.OnlyWritesCanViolate := by
  intro i s
  have ends := exec_ends i s
  generalize exec i s = o at ends
  cases ends with
  | next => simp
  | @violation u kind target v allowed rejects midway =>
    obtain ⟨control, f, pc⟩ := midway
    simp only [controlPart, State.mk.injEq] at control
    refine ⟨?_, by simp⟩
    rintro _ ⟨⟩
    refine ⟨allowed, _, rfl, ?_⟩
    simp [control, f, pc]

/-! Steps that run no instruction. -/

/-- Settles O6: the decoder rejects these bytes, and the deciding reads are recorded before the fault. -/
theorem unimplementedChangesNothingButTheFaultStatus :
    Obligations.UnimplementedChangesNothingButTheFaultStatus := by
  intro s bytes noFault outside
  have rejected : decode (fetchWindow s) = .error (.unimplemented bytes) :=
    (rejectedEncodingsAreExactlyTheNonAdmitted _ _).mpr outside
  rw [step, if_neg (not_not_intro noFault), rejected]
  dsimp only
  rw [fetched_eq]
  rfl

/-- Settles O7: the first test of a step is that of the fault status. -/
theorem faultedCoreDoesNotStep : Obligations.FaultedCoreDoesNotStep := fun _ => ⟨fun faulted => if_pos faulted, rfl⟩

end Sys2Proof.Machine
end

section
/-! SUPPORT. The bit family (spec/47_bit.md): the bits of a byte after SET and RES (R333, R336), and a read-modify-write
without flags in the vocabulary of the claims. -/

namespace Sys2Proof.Machine
open Sys2Proof.Claims

/-! SET and RES by the bits of their results. -/

section Bits
variable (b : Fin 8) (v : Byte)

theorem getLsbD_setBit (k : Fin 8) : (setBit b v).getLsbD k.val = (decide (k = b) || v.getLsbD k.val) := by
  simp [setBit, bitMask, Fin.ext_iff, Bool.or_comm, eq_comm]

theorem getLsbD_resetBit (k : Fin 8) : (resetBit b v).getLsbD k.val = (!decide (k = b) && v.getLsbD k.val) := by
  simp [resetBit, bitMask, Fin.ext_iff, Bool.and_comm, eq_comm]

variable {b v} {w : Byte}

/-- A byte with these bits is the one SET makes. -/
theorem eq_setBit (bits : ∀ k : Fin 8, w.getLsbD k.val = (decide (k = b) || v.getLsbD k.val)) : w = setBit b v :=
  BitVec.eq_of_getLsbD_eq fun k hk => (bits ⟨k, hk⟩).trans (getLsbD_setBit b v ⟨k, hk⟩).symm

/-- A byte with these bits is the one RES makes. -/
theorem eq_resetBit (bits : ∀ k : Fin 8, w.getLsbD k.val = (!decide (k = b) && v.getLsbD k.val)) : w = resetBit b v :=
  BitVec.eq_of_getLsbD_eq fun k hk => (bits ⟨k, hk⟩).trans (getLsbD_resetBit b v ⟨k, hk⟩).symm

end Bits

/-! The encodings and meanings of the memory forms. -/

/-- The encoding of an operation of the 0xCB page on a memory location, by the fields x and y of its opcode byte (R94,
R97). -/
theorem encode_eq_cbBytes {instr : Loc → Instr} {x y op : Nat} (sum : 64 * x + 8 * y + 6 = op)
    (atHl : encode (instr .atHl) = [0xCB, opXyz x y 6])
    (atIdx : ∀ i d, encode (instr (.atIdx i d)) = [idxPrefix i, 0xCB, d, opXyz x y 6]) (loc : Loc) :
    encode (instr loc) = cbBytes op loc := by
  cases loc with
  | atHl => rw [atHl, opXyz_eq_ofNat sum, cbBytes]
  | atIdx i d => rw [atIdx, opXyz_eq_ofNat sum, cbBytes]

theorem exec_bitMem (b : Fin 8) (x : Loc) (s : State) : exec (bitMem b x) s = bitTestMem b x (cbLen x) s := by
  cases x <;> rfl

theorem exec_setMem (b : Fin 8) (x : Loc) (s : State) :
    exec (setMem b x) s = modifyMemPlain x (setBit b) (cbLen x) s := by
  cases x <;> rfl

theorem exec_resMem (b : Fin 8) (x : Loc) (s : State) :
    exec (resMem b x) s = modifyMemPlain x (resetBit b) (cbLen x) s := by
  cases x <;> rfl

theorem modifyMemPlain_storesByte (x : Loc) (g : Byte → Byte) (n : Nat) (s : State) :
    storesByte (locAddr x s) (g (peek s (locAddr x s))) (locHistory x s) s (modifyMemPlain x g n s) fun t =>
      sameFlags s t ∧ t.pc = nextPc n s := by
  rw [modifyMemPlain_eq]
  exact storesByte_ite rfl ⟨⟨rfl, rfl⟩, rfl⟩

/-- Only F, the draws and pc change, after reads that have left `history` (R330 to R332). -/
theorem finish_writeF (f : Byte) (n : Nat) (history : List Access) (s : State) :
    ∃ t, finish n (writeF f { s with history := history }) = .next t ∧ flagsWritten f s t ∧
      t = { s with f := t.f, draws := t.draws, pc := nextPc n s, history := history } := by
  obtain ⟨f', draws, written, flags⟩ := exists_writeF_eq f { s with history := history }
  rw [written]
  exact ⟨_, rfl, flags, rfl⟩

/-! The instructions. -/

/-- Settles O47: each form ends with WriteF, a memory form after its read. -/
theorem bitTests : Obligations.BitTests := by
  refine ⟨fun b r s => ⟨?opcode, finish_writeF _ 2 s.history s⟩, fun b x s => ⟨?encoding, ?memory⟩⟩
  case opcode =>
    have opcode : opXyz 1 b.val (reg8Code r) = BitVec.ofNat 8 (0x40 + 8 * b.val + reg8Code r) :=
      opXyz_eq_ofNat (by omega)
    exact congrArg ([0xCB, ·]) opcode
  case encoding => exact encode_eq_cbBytes (instr := bitMem b) (by omega) rfl (fun _ _ => rfl) x
  case memory =>
    rw [exec_bitMem]
    exact finish_writeF _ (cbLen x) (locHistory x s) s

/-- Settles O48: the given bits are those of the byte SET or RES makes; the register forms end with `setR8`, the memory
forms are a `modifyMemPlain`. -/
theorem setAndResetBits : Obligations.SetAndResetBits := by
  refine fun b v1 v0 => ⟨fun r s => ?register, fun x s => ?memory⟩
  case register =>
    have set : opXyz 3 b.val (reg8Code r) = BitVec.ofNat 8 (0xC0 + 8 * b.val + reg8Code r) := opXyz_eq_ofNat (by omega)
    have res : opXyz 2 b.val (reg8Code r) = BitVec.ofNat 8 (0x80 + 8 * b.val + reg8Code r) := opXyz_eq_ofNat (by omega)
    refine ⟨congrArg ([0xCB, ·]) set, congrArg ([0xCB, ·]) res, fun bits => ?_, fun bits => ?_⟩
    · rw [eq_setBit bits]
      exact finish_setR8 s s.history 2 r _
    · rw [eq_resetBit bits]
      exact finish_setR8 s s.history 2 r _
  case memory =>
    refine ⟨encode_eq_cbBytes (instr := setMem b) (by omega) rfl (fun _ _ => rfl) x,
      encode_eq_cbBytes (instr := resMem b) (by omega) rfl (fun _ _ => rfl) x, fun bits => ?_, fun bits => ?_⟩
    · rw [exec_setMem, eq_setBit bits]
      exact modifyMemPlain_storesByte x (setBit b) (cbLen x) s
    · rw [exec_resMem, eq_resetBit bits]
      exact modifyMemPlain_storesByte x (resetBit b) (cbLen x) s

end Sys2Proof.Machine
end

section
/-! SUPPORT. The input, output and interrupt control family (spec/49_io_interrupt_nop.md R370 to R375). -/

namespace Sys2Proof.Machine
open Sys2Proof.Claims

/-- Settles O52: IN reads the collaborator's answer, whatever it is (log entry 3); OUT is an `ioWrite`. -/
theorem inputAndOutput : Obligations.InputAndOutput := by
  refine fun n s => ⟨rfl, rfl, ⟨Config.ioRead n s.history, rfl⟩, fun accepted => ?accepted, fun rejected => ?rejected⟩
  case accepted =>
    have written : ioWrite n s.a s = .next (record (.ioWrite n s.a) s) := if_neg accepted
    calc exec (.outMNA n) s
      _ = andThen (ioWrite n s.a s) (finish 2) := rfl
      _ = finish 2 (record (.ioWrite n s.a) s) := by rw [written, andThen_next]
  case rejected =>
    have violation : ioWrite n s.a s = raiseViolation .ioWrite (n.setWidth 16) s.a s := if_pos rejected
    calc exec (.outMNA n) s
      _ = andThen (ioWrite n s.a s) (finish 2) := rfl
      _ = raiseViolation .ioWrite (n.setWidth 16) s.a s := by rw [violation]; rfl

/-- Settles O53: each instruction is one assignment to IFF, IM or nothing, and pc. -/
theorem interruptControlAndNop : Obligations.InterruptControlAndNop := fun _ =>
  ⟨rfl, rfl, rfl, rfl, rfl, rfl, rfl, rfl, rfl, rfl, rfl, rfl⟩

end Sys2Proof.Machine
end

section
/-! SUPPORT. The block family (spec/48_block.md): what one iteration does, what holds after `n` of them, and how a group
of them ends (R350 to R358). -/

namespace Sys2Proof.Machine
open Sys2Proof.Claims

/-! Addresses and counts, mod 65536. -/

/-- The operand `step` of the block operations in each direction. -/
def direction (up : Bool) : Word := if up then 1 else 0xFFFF

section Moved
variable (up : Bool) (addr : Word) (n k : Nat)

theorem add_direction : addr + direction up = moved up addr 1 := by
  cases up
  · show addr + 65535#16 = addr - 1#16
    bv_omega
  · rfl

@[simp] theorem moved_zero : moved up addr 0 = addr := by cases up <;> simp [moved]

theorem moved_moved : moved up (moved up addr n) k = moved up addr (n + k) := by
  cases up <;> simp only [moved, Bool.false_eq_true, if_true, if_false, BitVec.ofNat_add] <;> ring

end Moved

/-! How many iterations a group has left (R358). -/

section Count
variable {s : State} {n : Nat}

theorem groupSize_pos (s : State) : 0 < groupSize s := by
  have := (getBc s).isLt
  unfold groupSize
  split_ifs <;> bv_omega

theorem groupSize_le (s : State) : groupSize s ≤ 65536 := by
  have := (getBc s).isLt
  unfold groupSize
  split_ifs <;> omega

theorem getBc_sub_groupSize (s : State) : getBc s - BitVec.ofNat 16 (groupSize s) = 0 := by
  unfold groupSize
  split_ifs with zero
  · rw [zero]; rfl
  · simp

/-- The counter does not come to 0 before the end of the group. -/
theorem getBc_sub_ne_zero (positive : 0 < n) (short : n < groupSize s) : getBc s - BitVec.ofNat 16 n ≠ 0 := by
  unfold groupSize at short
  split_ifs at short with zero <;> bv_omega

end Count
/-! Block transfers. -/

/-- The state after an iteration of a block transfer whose write is accepted (R350). -/
def transferred (up : Bool) (s : State) : State :=
  setBc (getBc s - 1) (setDe (moved up (getDe s) 1) (setHl (moved up (getHl s) 1)
    (stored (getDe s) (peek s (getHl s)) (memRead (getHl s) s).2)))

/-- What an iteration of a block transfer whose write is refused leaves (R402). -/
def transferRefused (s : State) : Out :=
  raiseViolation .unmappedWrite (getDe s) (peek s (getHl s)) (memRead (getHl s) s).2

theorem transferOnce_of_accepted (up : Bool) {s : State} (accepted : accepts s (getDe s) = true) :
    transferOnce (direction up) s = .next (transferred up s) := by
  rw [transferOnce_eq, add_direction, add_direction, accepted]
  rfl

theorem transferOnce_of_refused (up : Bool) {s : State} (refused : accepts s (getDe s) = false) :
    transferOnce (direction up) s = transferRefused s := by
  rw [transferOnce_eq, refused]
  rfl

/-- `t` is the state after `n` iterations of a block transfer that began in `s`, each with its write accepted. -/
structure AfterTransfers (s : State) (up : Bool) (n : Nat) (t : State) : Prop where
  reads : peek t = copied s up n (getHl s) (getDe s) (peek s)
  hl : getHl t = moved up (getHl s) n
  de : getDe t = moved up (getDe s) n
  bc : getBc t = getBc s - BitVec.ofNat 16 n
  history : t.history = transferHistory s up n
  frame : t = { s with
    b := t.b, c := t.c, d := t.d, e := t.e, h := t.h, l := t.l, mem := t.mem, history := t.history }

section Transfers
variable {s t : State} {up : Bool} {n more : Nat}

/-- The last of `n + 1` iterations reads what those before it have left. -/
theorem copied_succ (s : State) (up : Bool) (n : Nat) (src dst : Word) (before : Word → Byte) :
    copied s up (n + 1) src dst before = readsAfter s (moved up dst n)
      (copied s up n src dst before (moved up src n)) (copied s up n src dst before) := by
  induction n generalizing src dst before with
  | zero => simp only [moved_zero]; rfl
  | succ n ih =>
    rw [copied, ih, moved_moved, moved_moved, Nat.add_comm 1 n]
    rfl

theorem transferHistory_succ (s : State) (up : Bool) (n : Nat) :
    transferHistory s up (n + 1) = .memWrite (moved up (getDe s) n) (copiedByte s up n) ::
      .memRead (moved up (getHl s) n) (copiedByte s up n) :: transferHistory s up n := by
  simp [transferHistory, transferAccesses, List.range_succ]

theorem AfterTransfers.zero (s : State) (up : Bool) : AfterTransfers s up 0 s where
  reads := rfl
  hl := by rw [moved_zero]
  de := by rw [moved_zero]
  bc := by simp
  history := rfl
  frame := rfl

/-- Which writes are accepted stays, because the platform does. -/
theorem AfterTransfers.accepts_eq (h : AfterTransfers s up n t) (addr : Word) : accepts t addr = accepts s addr := by
  rw [h.frame]
  rfl

/-- The byte that the next iteration copies. -/
theorem AfterTransfers.next_byte (h : AfterTransfers s up n t) : peek t (getHl t) = copiedByte s up n := by
  rw [h.reads, h.hl, copiedByte]

theorem AfterTransfers.succ (h : AfterTransfers s up n t) : AfterTransfers s up (n + 1) (transferred up t) where
  reads := by
    have kind : memKind t = memKind s := by rw [h.frame]; rfl
    have written : peek (transferred up t) = readsAfter t (getDe t) (peek t (getHl t)) (peek t) :=
      funext (peek_stored (getDe t) (peek t (getHl t)) t)
    rw [written, copied_succ, h.reads, h.hl, h.de]
    unfold readsAfter
    rw [kind]
  hl := by
    calc getHl (transferred up t)
      _ = moved up (getHl t) 1 := mkWord_hiByte_loByte _
      _ = moved up (getHl s) (n + 1) := by rw [h.hl, moved_moved]
  de := by
    calc getDe (transferred up t)
      _ = moved up (getDe t) 1 := mkWord_hiByte_loByte _
      _ = moved up (getDe s) (n + 1) := by rw [h.de, moved_moved]
  bc := by
    calc getBc (transferred up t)
      _ = getBc t - 1 := mkWord_hiByte_loByte _
      _ = getBc s - BitVec.ofNat 16 (n + 1) := by rw [h.bc, BitVec.ofNat_add]; exact sub_sub ..
  history := by
    calc (transferred up t).history
      _ = .memWrite (getDe t) (peek t (getHl t)) :: .memRead (getHl t) (peek t (getHl t)) :: t.history := rfl
      _ = transferHistory s up (n + 1) := by rw [h.next_byte, h.de, h.hl, h.history, transferHistory_succ]
  frame := by
    rw [h.frame]
    rfl

/-! The loop of a transfer group (R352). -/

theorem transferLoop_of_refused (refused : accepts s (getDe s) = false) :
    transferLoop (direction up) more s = transferRefused s := by
  have once := transferOnce_of_refused up refused
  cases more with
  | zero => exact once
  | succ more => rw [transferLoop, once]; rfl

theorem transferLoop_of_last (accepted : accepts s (getDe s) = true) (last : getBc (transferred up s) = 0) :
    transferLoop (direction up) more s = .next (transferred up s) := by
  have once := transferOnce_of_accepted up accepted
  cases more with
  | zero => exact once
  | succ more => rw [transferLoop, once, andThen_next, if_pos last]

theorem transferLoop_of_more (accepted : accepts s (getDe s) = true) (go : getBc (transferred up s) ≠ 0) :
    transferLoop (direction up) (more + 1) s = transferLoop (direction up) more (transferred up s) := by
  rw [transferLoop, transferOnce_of_accepted up accepted, andThen_next, if_neg go]

/-- Iterations short of the whole group, each with its write accepted, leave the rest of the loop. -/
theorem transferLoop_iterate (n : Nat) (short : n < groupSize s)
    (accepted : ∀ k, k < n → accepts s (moved up (getDe s) k) = true) (more : Nat) :
    ∃ t, AfterTransfers s up n t ∧
      transferLoop (direction up) (n + more) s = transferLoop (direction up) more t := by
  induction n generalizing more with
  | zero => exact ⟨s, .zero s up, by rw [Nat.zero_add]⟩
  | succ n ih =>
    obtain ⟨t, after, loop⟩ := ih (by omega) (fun k hk => accepted k (by omega)) (more + 1)
    refine ⟨transferred up t, after.succ, ?_⟩
    have write : accepts t (getDe t) = true := by
      rw [after.accepts_eq, after.de]
      exact accepted n (by omega)
    have go : getBc (transferred up t) ≠ 0 := by
      rw [after.succ.bc]
      exact getBc_sub_ne_zero (by omega) short
    rw [Nat.add_right_comm, Nat.add_assoc, loop, transferLoop_of_more write go]

/-- 65535 further iterations are enough for any group (R358). -/
theorem exists_more (short : n < groupSize s) : ∃ more, 65535 = n + more :=
  Nat.exists_eq_add_of_le (by have := groupSize_le s; omega)

/-- A group of which every write is accepted runs to its end. -/
theorem transferLoop_completes (accepted : ∀ k, k < groupSize s → accepts s (moved up (getDe s) k) = true) :
    ∃ t, transferLoop (direction up) 65535 s = .next t ∧ AfterTransfers s up (groupSize s) t := by
  obtain ⟨n, size⟩ : ∃ n, groupSize s = n + 1 := Nat.exists_eq_add_one.mpr (groupSize_pos s)
  have short : n < groupSize s := by omega
  obtain ⟨more, count⟩ := exists_more short
  obtain ⟨t, after, loop⟩ := transferLoop_iterate n short (fun k hk => accepted k (by omega)) more
  have write : accepts t (getDe t) = true := by
    rw [after.accepts_eq, after.de]
    exact accepted n short
  have last : getBc (transferred up t) = 0 := by rw [after.succ.bc, ← size, getBc_sub_groupSize]
  refine ⟨transferred up t, ?_, size ▸ after.succ⟩
  rw [count, loop, transferLoop_of_last write last]

/-- A group stops at its first refused write. -/
theorem transferLoop_stops (short : n < groupSize s)
    (accepted : ∀ k, k < n → accepts s (moved up (getDe s) k) = true)
    (refused : accepts s (moved up (getDe s) n) = false) :
    ∃ t, transferLoop (direction up) 65535 s = transferRefused t ∧ AfterTransfers s up n t := by
  obtain ⟨more, count⟩ := exists_more short
  obtain ⟨t, after, loop⟩ := transferLoop_iterate n short accepted more
  refine ⟨t, ?_, after⟩
  rw [count, loop, transferLoop_of_refused (by rwa [after.accepts_eq, after.de])]

/-- The end of a block transfer of `n` iterations: the flags, then pc. -/
theorem AfterTransfers.finish (h : AfterTransfers s up n t) :
    ∃ u, finishTransfer s.f t = .next u ∧ (∀ x, peek u x = copied s up n (getHl s) (getDe s) (peek s) x) ∧
      getHl u = moved up (getHl s) n ∧ getDe u = moved up (getDe s) n ∧ getBc u = getBc s - BitVec.ofNat 16 n ∧
      flagsWritten (ldblockFlags (getBc s - BitVec.ofNat 16 n) s.f) s u ∧ u.pc = s.pc + 2 ∧
      u.history = transferHistory s up n ∧ blockFrame s u := by
  obtain ⟨reads, hl, de, bc, history, frame⟩ := h
  obtain ⟨u, answer, flags, left⟩ := finish_writeF (ldblockFlags (getBc t) s.f) 2 t.history t
  have same : flagsWritten (ldblockFlags (getBc t) s.f) s u := by rw [frame] at flags ⊢; exact flags
  refine ⟨u, answer, congrFun ?_, ?_, ?_, ?_, bc ▸ same, ?_, ?_, ?_⟩
  all_goals rw [left]
  · exact reads
  · exact hl
  · exact de
  · exact bc
  · exact congrArg (·.pc + 2) frame
  · exact history
  · rw [frame]; rfl

/-- What stands when the write of iteration `n` is refused: the iterations before it and the read (R402). -/
theorem AfterTransfers.stop (h : AfterTransfers s up n t) :
    ∃ u, transferRefused t = .fault (.contractViolation u) ∧
      (∀ x, peek u x = copied s up n (getHl s) (getDe s) (peek s) x) ∧
      getHl u = moved up (getHl s) n ∧ getDe u = moved up (getDe s) n ∧ getBc u = getBc s - BitVec.ofNat 16 n ∧
      u.f = s.f ∧ u.draws = s.draws ∧ u.pc = s.pc ∧
      u.fault = .contractViolation s.pc .unmappedWrite (moved up (getDe s) n) (copiedByte s up n) ∧
      u.history = .memRead (moved up (getHl s) n) (copiedByte s up n) :: transferHistory s up n ∧
      blockFrame { s with fault := u.fault } u := by
  have byte := h.next_byte
  obtain ⟨reads, hl, de, bc, history, frame⟩ := h
  have pc : t.pc = s.pc := by rw [frame]
  have violation : FaultStatus.contractViolation t.pc .unmappedWrite (getDe t) (peek t (getHl t)) =
      .contractViolation s.pc .unmappedWrite (moved up (getDe s) n) (copiedByte s up n) := by rw [pc, de, byte]
  have read : Access.memRead (getHl t) (peek t (getHl t)) :: t.history =
      .memRead (moved up (getHl s) n) (copiedByte s up n) :: transferHistory s up n := by rw [byte, hl, history]
  refine ⟨_, rfl, congrFun reads, hl, de, bc, ?_, ?_, pc, violation, read, ?_⟩
  all_goals rw [frame]; rfl

end Transfers

theorem exec_repeatedTransfer (up : Bool) (s : State) :
    exec (if up then .ldir else .lddr) s = andThen (transferLoop (direction up) 65535 s) (finishTransfer s.f) := by
  cases up <;> rfl

/-- Settles O50: a group runs to its end or stops at its first refused write, and `AfterTransfers` says what has
happened by then. -/
theorem repeatedTransferRunsToItsEnd : Obligations.RepeatedTransferRunsToItsEnd := by
  refine fun up s => ⟨rfl, rfl, fun accepted => ?completes, fun k short accepted refused => ?stops⟩
  case completes =>
    obtain ⟨t, loop, after⟩ := transferLoop_completes accepted
    obtain ⟨u, answer, ends⟩ := after.finish
    rw [getBc_sub_groupSize] at ends
    exact ⟨u, by rw [exec_repeatedTransfer, loop, andThen_next, answer], ends⟩
  case stops =>
    obtain ⟨t, loop, after⟩ := transferLoop_stops short accepted refused
    obtain ⟨u, answer, ends⟩ := after.stop
    exact ⟨u, by rw [exec_repeatedTransfer, loop, answer, andThen_fault], ends⟩

/-! Block compares. -/

/-- The state after an iteration of a block compare (R354). -/
def compared (up : Bool) (s : State) : State :=
  setBc (getBc s - 1) (setHl (moved up (getHl s) 1) (memRead (getHl s) s).2)

theorem compareOnce_direction (up : Bool) (s : State) :
    compareOnce (direction up) s = (peek s (getHl s), compared up s) := by
  rw [compared, ← add_direction]
  rfl

/-- `t` is the state after `n` iterations of a block compare that began in `s`. -/
structure AfterCompares (s : State) (up : Bool) (n : Nat) (t : State) : Prop where
  hl : getHl t = moved up (getHl s) n
  bc : getBc t = getBc s - BitVec.ofNat 16 n
  history : t.history = compareHistory s up n
  frame : t = { s with b := t.b, c := t.c, h := t.h, l := t.l, history := t.history }

section Compares
variable {s t : State} {up : Bool} {n more : Nat}

theorem compareHistory_succ (s : State) (up : Bool) (n : Nat) :
    compareHistory s up (n + 1) =
      .memRead (moved up (getHl s) n) (peek s (moved up (getHl s) n)) :: compareHistory s up n := by
  simp [compareHistory, List.range_succ]

theorem AfterCompares.zero (s : State) (up : Bool) : AfterCompares s up 0 s where
  hl := by rw [moved_zero]
  bc := by simp
  history := rfl
  frame := rfl

/-- The byte that the next iteration compares. -/
theorem AfterCompares.next_byte (h : AfterCompares s up n t) : peek t (getHl t) = peek s (moved up (getHl s) n) := by
  have reads : peek t = peek s := by rw [h.frame]; rfl
  rw [reads, h.hl]

theorem AfterCompares.a_eq (h : AfterCompares s up n t) : t.a = s.a := by rw [h.frame]

theorem AfterCompares.succ (h : AfterCompares s up n t) : AfterCompares s up (n + 1) (compared up t) where
  hl := by
    calc getHl (compared up t)
      _ = moved up (getHl t) 1 := mkWord_hiByte_loByte _
      _ = moved up (getHl s) (n + 1) := by rw [h.hl, moved_moved]
  bc := by
    calc getBc (compared up t)
      _ = getBc t - 1 := mkWord_hiByte_loByte _
      _ = getBc s - BitVec.ofNat 16 (n + 1) := by rw [h.bc, BitVec.ofNat_add]; exact sub_sub ..
  history := by
    calc (compared up t).history
      _ = .memRead (getHl t) (peek t (getHl t)) :: t.history := rfl
      _ = compareHistory s up (n + 1) := by rw [h.next_byte, h.hl, h.history, compareHistory_succ]
  frame := by
    rw [h.frame]
    rfl

/-! The loop of a compare group (R356). -/

theorem compareLoop_of_last (last : getBc (compared up s) = 0 ∨ s.a = peek s (getHl s)) :
    compareLoop (direction up) more s = (peek s (getHl s), compared up s) := by
  cases more with
  | zero => exact compareOnce_direction up s
  | succ more =>
    rw [compareLoop, compareOnce_direction]
    exact if_pos last

theorem compareLoop_of_more (go : getBc (compared up s) ≠ 0) (differs : s.a ≠ peek s (getHl s)) :
    compareLoop (direction up) (more + 1) s = compareLoop (direction up) more (compared up s) := by
  rw [compareLoop, compareOnce_direction]
  exact if_neg (not_or.mpr ⟨go, differs⟩)

/-- Iterations short of the whole group, none of which finds A, leave the rest of the loop. -/
theorem compareLoop_iterate (n : Nat) (short : n < groupSize s)
    (differs : ∀ k, k < n → peek s (moved up (getHl s) k) ≠ s.a) (more : Nat) :
    ∃ t, AfterCompares s up n t ∧ compareLoop (direction up) (n + more) s = compareLoop (direction up) more t := by
  induction n generalizing more with
  | zero => exact ⟨s, .zero s up, by rw [Nat.zero_add]⟩
  | succ n ih =>
    obtain ⟨t, after, loop⟩ := ih (by omega) (fun k hk => differs k (by omega)) (more + 1)
    refine ⟨compared up t, after.succ, ?_⟩
    have go : getBc (compared up t) ≠ 0 := by
      rw [after.succ.bc]
      exact getBc_sub_ne_zero (by omega) short
    have noMatch : t.a ≠ peek t (getHl t) := by
      rw [after.a_eq, after.next_byte]
      exact (differs n (by omega)).symm
    rw [Nat.add_right_comm, Nat.add_assoc, loop, compareLoop_of_more go noMatch]

/-- A group stops at the first iteration that is its last or finds A. -/
theorem compareLoop_stops (up : Bool) (s : State) :
    ∃ n t, n < groupSize s ∧ (∀ k, k < n → peek s (moved up (getHl s) k) ≠ s.a) ∧
      (n + 1 = groupSize s ∨ peek s (moved up (getHl s) n) = s.a) ∧ AfterCompares s up (n + 1) t ∧
      compareLoop (direction up) 65535 s = (peek s (moved up (getHl s) n), t) := by
  have bounded : ∃ n, n + 1 = groupSize s ∨ peek s (moved up (getHl s) n) = s.a :=
    ⟨groupSize s - 1, .inl (Nat.sub_add_cancel (groupSize_pos s))⟩
  obtain ⟨n, stop, first⟩ := Nat.findX bounded
  have differs (k : Nat) (hk : k < n) : peek s (moved up (getHl s) k) ≠ s.a := fun found => first k hk (.inr found)
  have short : n < groupSize s := by
    by_contra long
    exact first (groupSize s - 1) (by have := groupSize_pos s; omega) (.inl (Nat.sub_add_cancel (groupSize_pos s)))
  obtain ⟨more, count⟩ := exists_more short
  obtain ⟨t, after, loop⟩ := compareLoop_iterate n short differs more
  have last : getBc (compared up t) = 0 ∨ t.a = peek t (getHl t) := by
    refine stop.imp (fun size => ?_) (fun found => ?_)
    · rw [after.succ.bc, size, getBc_sub_groupSize]
    · rw [after.a_eq, after.next_byte, found]
  refine ⟨n, compared up t, short, differs, stop, after.succ, ?_⟩
  rw [count, loop, compareLoop_of_last last, after.next_byte]

/-- The end of a block compare of `n` iterations, the last of the byte `m`: the flags, then pc. -/
theorem AfterCompares.finish (h : AfterCompares s up n t) (m : Byte) :
    ∃ u, finishCompare (m, t) s.f = .next u ∧ getHl u = moved up (getHl s) n ∧ getDe u = getDe s ∧
      getBc u = getBc s - BitVec.ofNat 16 n ∧ u.mem = s.mem ∧
      flagsWritten (cpblockFlags s.a m (getBc s - BitVec.ofNat 16 n) s.f) s u ∧ u.pc = s.pc + 2 ∧
      u.history = compareHistory s up n ∧ blockFrame s u := by
  have a := h.a_eq
  obtain ⟨hl, bc, history, frame⟩ := h
  obtain ⟨u, answer, flags, left⟩ := finish_writeF (cpblockFlags t.a m (getBc t) s.f) 2 t.history t
  have same : flagsWritten (cpblockFlags t.a m (getBc t) s.f) s u := by rw [frame] at flags ⊢; exact flags
  refine ⟨u, answer, ?_, ?_, ?_, ?_, bc ▸ a ▸ same, ?_, ?_, ?_⟩
  all_goals rw [left]
  · exact hl
  · rw [frame]; rfl
  · exact bc
  · rw [frame]
  · exact congrArg (·.pc + 2) frame
  · exact history
  · rw [frame]; rfl

end Compares

/-! The flags of a compare group: Z or PV tells why it stopped (R356). -/

/-- Z and PV are written under either policy (R131). -/
theorem flagsWritten_flagZ_flagPV {f : Byte} {s t : State} (written : flagsWritten f s t) :
    flagZ t.f = flagZ f ∧ flagPV t.f = flagPV f := by
  unfold flagsWritten at written
  split at written
  · rw [written.1]
    exact ⟨rfl, rfl⟩
  · have masked (k : Nat) (kept : (0xD7#8).getLsbD k = true) : t.f.getLsbD k = f.getLsbD k := by
      simpa [kept] using congrArg (·.getLsbD k) written.1
    exact ⟨masked 6 rfl, masked 2 rfl⟩

theorem flagZ_sub8_self (a : Byte) : flagZ (sub8 a a false).2 = true := by simp [sub8, flagsOf]

theorem exec_repeatedCompare (up : Bool) (s : State) :
    exec (if up then .cpir else .cpdr) s = finishCompare (compareLoop (direction up) 65535 s) s.f := by
  cases up <;> rfl

/-- Settles O51: the number of comparisons is that of `compareLoop_stops`. -/
theorem repeatedCompareStopsAtTheFirstMatch : Obligations.RepeatedCompareStopsAtTheFirstMatch := by
  intro up s
  obtain ⟨n, t, short, differs, stop, after, loop⟩ := compareLoop_stops up s
  obtain ⟨u, answer, hl, de, bc, mem, flags, ends⟩ := after.finish (peek s (moved up (getHl s) n))
  refine ⟨rfl, rfl, n + 1, by omega, by omega, fun k hk => differs k (by omega), stop, u, ?_, hl, de, bc, mem, flags,
    ?_, ends⟩
  · rw [exec_repeatedCompare, loop, answer]
  · rintro ⟨noMatch, notDone⟩
    obtain ⟨z, pv⟩ := flagsWritten_flagZ_flagPV flags
    rw [z] at noMatch
    rw [pv] at notDone
    obtain size | found := stop
    · simp [cpblockFlags, size, getBc_sub_groupSize] at notDone
    · simp [cpblockFlags, found, flagZ_sub8_self] at noMatch

/-! Single transfers and compares. -/

theorem exec_singleTransfer (up : Bool) (s : State) :
    exec (if up then .ldi else .ldd) s = andThen (transferOnce (direction up) s) (finishTransfer s.f) := by
  cases up <;> rfl

theorem exec_singleCompare (up : Bool) (s : State) :
    exec (if up then .cpi else .cpd) s = finishCompare (compareOnce (direction up) s) s.f := by
  cases up <;> rfl

/-- Settles O49: each instruction is one iteration of its group. -/
theorem singleBlockTransfersAndCompares : Obligations.SingleBlockTransfersAndCompares := by
  refine fun up s => ⟨rfl, rfl, rfl, rfl, fun accepted => ?transfers, fun refused => ?stops, ?compares⟩
  case transfers =>
    obtain ⟨u, answer, ends⟩ := (AfterTransfers.zero s up).succ.finish
    simp only [transferHistory_succ, copiedByte, moved_zero] at ends
    exact ⟨u, by rw [exec_singleTransfer, transferOnce_of_accepted up accepted, andThen_next, answer], ends⟩
  case stops =>
    rw [exec_singleTransfer, transferOnce_of_refused up refused]
    rfl
  case compares =>
    obtain ⟨u, answer, ends⟩ := (AfterCompares.zero s up).succ.finish (peek s (getHl s))
    simp only [compareHistory_succ, moved_zero] at ends
    exact ⟨u, by rw [exec_singleCompare, compareOnce_direction, answer], ends⟩

end Sys2Proof.Machine
end
